-- ==== Sys2Proof/Word.lean ====
section
/-! DEFINITION. The machine's words: widths only (rules R10, R11 of spec/00_scope.md). -/

namespace Sys2Proof

/-- A host register or a command word: 32 bits (R10, R30, R90). -/
abbrev Word := BitVec 32

/-- A device register value, a register offset or a byte on the bus (R10). -/
abbrev Byte := BitVec 8

/-- A "7-bit address" of a device on the bus (R10, R60). -/
abbrev DevAddr := BitVec 7

end Sys2Proof
end

