-- ==== Sys2Proof/Syntax.lean ====
section
/-! DEFINITION. The commands, one constructor per row of spec/opcode_table.json (R96 of spec/30_encoding.md). -/

namespace Sys2Proof

/-- The channel argument of SELECT: "enum {COAX, FIBER0, FIBER1, NONE}" (R93). -/
inductive Channel
  | coax | fiber0 | fiber1 | none
deriving DecidableEq, Repr

/-- A command. -/
inductive Instr
  /-- OPEN with the revision argument's character code, 0 for "none given" (R92, R130). -/
  | openDev (revch : Byte)
  /-- CLOSE (R138). -/
  | close
  /-- ENABLE (R140). -/
  | enable
  /-- DISABLE (R141). -/
  | disable
  /-- SETUP (R166). -/
  | setup
  /-- SELECT (R180). -/
  | select (ch : Channel)
  /-- SET_PULSE (R171). -/
  | setPulse
  /-- SET_VCO (R172). -/
  | setVco
  /-- SET_ATTEN with its level as the integer `sext_16(LEVEL)` (R95, R195). -/
  | setAtten (level : Int)
  /-- READ_TEMP: `wb` is the presence of the output slot (R94, R210). -/
  | readTemp (wb : Bool)
  /-- ENABLE_DEBUG (R94, R143). -/
  | enableDebug (dbg : Bool)
deriving DecidableEq, Repr

end Sys2Proof
end

