-- ==== Sys2Proof/WellFormed.lean ====
section
/-! DEFINITION. Which commands have a word. The types of `Instr` already bound every operand but one: the level is an
integer, and the 16-bit field holds -32768 to 32767 (R95 of spec/30_encoding.md). -/

namespace Sys2Proof

/-- The level fits the 16-bit two's-complement field (R95). Clamping to 0..63 is the command's meaning, no
condition on its form. -/
abbrev levelFits (level : Int) : Bool := decide (-32768 ≤ level) && decide (level ≤ 32767)

/-- The check of every command. -/
def Instr.wf : Instr → Bool
  | .openDev _ => true
  | .close => true
  | .enable => true
  | .disable => true
  | .setup => true
  | .select _ => true
  | .setPulse => true
  | .setVco => true
  | .setAtten level => levelFits level
  | .readTemp _ => true
  | .enableDebug _ => true

end Sys2Proof
end

