-- ==== Sys2Proof/Decode.lean ====
section
/-! DEFINITION. From command words to commands and back (spec/30_encoding.md). The decoder is total on 32-bit words and
rejects by name; the encoder is written from the five formats of R91; the opcode table of R96 stands beside them as
data. -/

namespace Sys2Proof

/-- Why a word is no command (R97). The machine answers both with IllegalCommand. -/
inductive Reject
  /-- `OPC = 0x00` or `OPC >= 0x0B`. -/
  | unknownOpcode
  /-- A listed `OPC` with a reserved bit set. -/
  | reservedBits
deriving DecidableEq, Repr

/-- `CH`'s numbering, the order in which the spec lists the channels (R93). -/
def Channel.code : Channel → BitVec 2
  | .coax => 0#2
  | .fiber0 => 1#2
  | .fiber1 => 2#2
  | .none => 3#2

/-- The channel of a two-bit field: every value is legal (R93). -/
def Channel.ofCode (c : BitVec 2) : Channel :=
  if c = 0#2 then .coax else if c = 1#2 then .fiber0 else if c = 2#2 then .fiber1 else .none

/-- `OPC`, bits 31:24 (R90). -/
def opcode (w : Word) : Byte := w.extractLsb' 24 8

/-- A command is accepted only if its reserved bits are zero (R97). -/
def checked (reservedZero : Bool) (i : Instr) : Except Reject Instr :=
  if reservedZero then .ok i else .error .reservedBits

/-- Format N: bits 23:0 reserved (R91). -/
def decodeN (w : Word) (i : Instr) : Except Reject Instr :=
  checked (w.extractLsb' 0 24 == 0#24) i

/-- Format V: bits 23:8 reserved, `REVCH` in bits 7:0 (R91). -/
def decodeV (w : Word) : Except Reject Instr :=
  checked (w.extractLsb' 8 16 == 0#16) (.openDev (w.extractLsb' 0 8))

/-- Format C: bits 23:2 reserved, `CH` in bits 1:0 (R91). -/
def decodeC (w : Word) : Except Reject Instr :=
  checked (w.extractLsb' 2 22 == 0#22) (.select (Channel.ofCode (w.extractLsb' 0 2)))

/-- Format F: bits 23:1 reserved, the flag in bit 0 (R91). -/
def decodeF (w : Word) (i : Bool → Instr) : Except Reject Instr :=
  checked (w.extractLsb' 1 23 == 0#23) (i (w.getLsbD 0))

/-- Format L: bits 23:16 reserved, `LEVEL` in bits 15:0, read as a signed integer (R91, R95). -/
def decodeL (w : Word) : Except Reject Instr :=
  checked (w.extractLsb' 16 8 == 0#8) (.setAtten (w.extractLsb' 0 16).toInt)

/-- The command a word stands for, or why it stands for none (R96, R97). -/
def decode (w : Word) : Except Reject Instr :=
  match (opcode w).toNat with
  | 0x01 => decodeV w
  | 0x02 => decodeN w .close
  | 0x03 => decodeN w .enable
  | 0x04 => decodeN w .disable
  | 0x05 => decodeN w .setup
  | 0x06 => decodeC w
  | 0x07 => decodeF w (fun pulseOn => if pulseOn then .setPulse else .setVco)
  | 0x08 => decodeL w
  | 0x09 => decodeF w .readTemp
  | 0x0A => decodeF w .enableDebug
  | _ => .error .unknownOpcode

/-- Format N's word (R91). -/
def wordN (opc : Byte) : Word := opc ++ 0#24

/-- Format F's word (R91). -/
def wordF (opc : Byte) (flag : Bool) : Word := opc ++ (0#23 ++ BitVec.ofBool flag)

/-- The word of a well-formed command (R91, R96). -/
def encode : Instr → Word
  | .openDev revch => 0x01#8 ++ (0#16 ++ revch)
  | .close => wordN 0x02#8
  | .enable => wordN 0x03#8
  | .disable => wordN 0x04#8
  | .setup => wordN 0x05#8
  | .select ch => 0x06#8 ++ (0#22 ++ ch.code)
  | .setPulse => wordF 0x07#8 true
  | .setVco => wordF 0x07#8 false
  | .setAtten level => 0x08#8 ++ (0#8 ++ BitVec.ofInt 16 level)
  | .readTemp wb => wordF 0x09#8 wb
  | .enableDebug dbg => wordF 0x0A#8 dbg

/-- A row of the opcode table: a word is of this row if and only if `(w & mask) = value` (R96). -/
structure OpcodeRow where
  mnemonic : String
  value : Word
  mask : Word
deriving DecidableEq, Repr

/-- The row selects the word (R96). -/
def OpcodeRow.selects (r : OpcodeRow) (w : Word) : Prop := w &&& r.mask = r.value

/-- The opcode table of R96, row by row. -/
def opcodeTable : List OpcodeRow :=
  [ { mnemonic := "OPEN", value := 0x01000000#32, mask := 0xFFFFFF00#32 },
    { mnemonic := "CLOSE", value := 0x02000000#32, mask := 0xFFFFFFFF#32 },
    { mnemonic := "ENABLE", value := 0x03000000#32, mask := 0xFFFFFFFF#32 },
    { mnemonic := "DISABLE", value := 0x04000000#32, mask := 0xFFFFFFFF#32 },
    { mnemonic := "SETUP", value := 0x05000000#32, mask := 0xFFFFFFFF#32 },
    { mnemonic := "SELECT", value := 0x06000000#32, mask := 0xFFFFFFFC#32 },
    { mnemonic := "SET_PULSE", value := 0x07000001#32, mask := 0xFFFFFFFF#32 },
    { mnemonic := "SET_VCO", value := 0x07000000#32, mask := 0xFFFFFFFF#32 },
    { mnemonic := "SET_ATTEN", value := 0x08000000#32, mask := 0xFFFF0000#32 },
    { mnemonic := "READ_TEMP", value := 0x09000000#32, mask := 0xFFFFFFFE#32 },
    { mnemonic := "ENABLE_DEBUG", value := 0x0A000000#32, mask := 0xFFFFFFFE#32 } ]

/-- A command's mnemonic in the table (R96). -/
def Instr.mnemonic : Instr → String
  | .openDev _ => "OPEN"
  | .close => "CLOSE"
  | .enable => "ENABLE"
  | .disable => "DISABLE"
  | .setup => "SETUP"
  | .select _ => "SELECT"
  | .setPulse => "SET_PULSE"
  | .setVco => "SET_VCO"
  | .setAtten _ => "SET_ATTEN"
  | .readTemp _ => "READ_TEMP"
  | .enableDebug _ => "ENABLE_DEBUG"

/-- The command word of the host's numbering: every command is one 32-bit word (R90), so bits above 31 make it none. -/
def decodeTableWord (nbits w : Nat) : Option Instr :=
  if w % 2 ^ nbits < 2 ^ 32 then (decode (BitVec.ofNat 32 (w % 2 ^ nbits))).toOption else none

end Sys2Proof
end

