-- ==== Sys2Proof/Config.lean ====
section
/-! DEFINITION. The constants the spec fixes (R9 of spec/00_scope.md), the parameter it leaves open (`MAX_READ`, R10), and
what the model fixes where the spec is silent. The environment's free choices are no constants: they stand in `State.env` (log 4). -/

namespace Sys2Proof.Config

/-- `ADDR_EXP0` (R9): Expander-0, switch-select and attenuator bits. -/
abbrev expander0 : DevAddr := 0x38#7

/-- `ADDR_EXP1` (R9): Expander-1, channel routing, pulse, VCO. -/
abbrev expander1 : DevAddr := 0x3F#7

/-- `ADDR_TEMP` (R9): the temperature sensor. -/
abbrev sensor : DevAddr := 0x18#7

/-- `REG_OUT` (R9): an expander's output register. -/
abbrev regOut : Byte := 0x01#8

/-- `REG_CFG` (R9): an expander's configuration register, 0 = pin configured as output. -/
abbrev regCfg : Byte := 0x03#8

/-- `REG_TEMP` (R9): the sensor's two-byte temperature register. -/
abbrev regTemp : Byte := 0x05#8

/-- `ATTEN_MAX` (R9). -/
abbrev attenMax : Int := 63

/-- ENABLE's literal `high` and a newline (R109). -/
abbrev literalHigh : List Byte := [0x68#8, 0x69#8, 0x67#8, 0x68#8, 0x0A#8]

/-- DISABLE's literal `low` and a newline: FOUR bytes (R109; conflict C2 of spec/90_conflicts.md). -/
abbrev literalLow : List Byte := [0x6C#8, 0x6F#8, 0x77#8, 0x0A#8]

/-- What a byte of the I2C register space that nothing has written reads as. DESIGN CHOICE (log 3), unsafe: the
spec leaves power-on contents unspecified (R44, U5). -/
abbrev unlistedByte : Byte := 0x00#8

/-- The number of cell keys of the I2C register space: 128 devices, 256 offsets, two bytes each (R60; log 14). -/
abbrev spaceSize : Nat := 65536

/-- By how much `MAX_READ` exceeds 2. Not fixed by the spec (R10, D26), and not fixed here: no value can be proved of it
(log 23). -/
opaque maxReadExtra : Nat

/-- The parameter `MAX_READ`, the largest count a `readN` takes: at least 2 and otherwise open (R10, R153, D26, U8). -/
def maxRead : Nat := 2 + maxReadExtra

end Sys2Proof.Config
end

