-- ==== Sys2Proof/Machine/State.lean ====
section
/-! DEFINITION. Everything the spec gives the machine, as plain data (spec/10_state.md, spec/20_memory.md,
spec/70_reset_and_hazards.md), and the machine right after reset. -/

namespace Sys2Proof.Machine

/-- `LIFECYCLE` (R31, R32); the value 3 never occurs and has no constructor. -/
inductive Lifecycle
  | unopened | opened | closed
deriving DecidableEq, Repr

/-- `REV`, the board revision latched at OPEN (R31). -/
inductive BoardRev
  | d | e
deriving DecidableEq, Repr

/-- `ERRKIND` (R33, R220); the values 8..15 are never produced and have no constructor. -/
inductive ErrKind
  | noError | invalidRevision | busOpenFailed | gpioOpenFailed | transportError | gpioWriteFailed
  | illegalCommand | badState
deriving DecidableEq, Repr

/-- The enable line `EN` (R40): `unknown` means nothing may be assumed of its direction or level. -/
inductive EnLine
  | high | low | unknown
deriving DecidableEq, Repr

/-- The six host registers (R30). -/
inductive HostReg
  | cmd | status | errCode | temp | busIdx | gpioPin
deriving DecidableEq, Repr

/-- One byte of the I2C register space: a device, a register offset and which byte of that register (R60). Both bytes
of the temperature register live at offset 0x05; byte 0 is the first one received (R63, R64). -/
structure Loc where
  dev : DevAddr
  off : Byte
  idx : Fin 2
deriving DecidableEq, Repr

/-- The contents of the I2C register space, in one canonical form: keys strictly rising, no cell holding what an
unlisted key reads as (`Memory.wf`). -/
abbrev Memory := List Host.Cell

/-- The devices on the bus (R44, R45, R73, R75): their registers, the attenuator's latched code `ATT`, and whether it has
been latched yet ("no value until first latched", R75); before that `att` holds the value log 12 names. -/
structure Devices where
  mem : Memory
  att : BitVec 6
  everLatched : Bool
deriving DecidableEq, Repr

/-- A positive OS error code, 1 to 2^31 - 1 (R34, D7), held as the code less one so that every value is legal. -/
structure OsCode where
  pred : Fin 2147483647
deriving DecidableEq, Repr

/-- How many bytes a `readN` of CALCTL reads: 1 from an expander, 2 from the sensor (R66, R153), both within
`Config.maxRead`. A count of 0 or above it, and a count that is not the register's size, is never produced (U8; log 23). -/
inductive ReadLen
  | one | two
deriving DecidableEq, Repr

/-- What a sequencer step asks of the environment (R27): a transport call (R150, R152), a `GpioWrite` (R78), the
bootstrap (R133) or an acquisition (R134, R135). -/
inductive Call
  | write (dev : DevAddr) (off val : Byte)
  | read (dev : DevAddr) (off : Byte) (len : ReadLen)
  | gpioWrite (bytes : List Byte)
  | bootstrap (pin : Word)
  | busAcquire (idx : Word)
  | gpioAcquire (pin : Word)
deriving DecidableEq, Repr

/-- A message: "target address, a read/write flag, byte length, and buffer" (R101). -/
structure Message where
  addr : DevAddr
  read : Bool
  length : Nat
  buffer : List Byte
deriving DecidableEq, Repr

/-- A debug trace record, one per message (R157); bit 0 of `flags` is 1 for a read message. Its width is DESIGN CHOICE
(log 15). -/
structure TraceRecord where
  address : DevAddr
  flags : Byte
  length : Nat
  bytes : List Byte
deriving DecidableEq, Repr

/-- One entry of "the ordered list of transactions and GPIO writes issued" (R272), the platform actions of OPEN and
CLOSE among them (R133 to R135, R138). A result `none` is `Ok`. -/
inductive Traffic
  | i2c (bus : Word) (messages : List Message) (failed : Option OsCode)
  | gpioWrite (pin : Word) (bytes : List Byte) (accepted : Option Nat)
  | bootstrap (pin : Word)
  | busAcquire (idx : Word) (failed : Option OsCode)
  | gpioAcquire (pin : Word) (ok : Bool)
  | gpioRelease (pin : Word)
  | busRelease (bus : Word)
deriving DecidableEq, Repr

/-- The environment's answer to one step (R76, R77, R78, R133 to R135): its draws, under no law.
`others` is what other bus masters, and the sensor, write before the step (R71);
`ok` the outcome of a transaction or an acquisition, `code` its OS error code when it fails;
`took` whether a FAILED write changed its register all the same (R77);
`accepted` the bytes the GPIO platform accepts, `none` a refusal (R78);
`failTrace` what the trace shows of a failed transaction (R157, U9). -/
structure Answer where
  others : List (Loc × Byte)
  ok : Bool
  code : OsCode
  took : Bool
  accepted : Option Nat
  failTrace : List TraceRecord
deriving DecidableEq, Repr

/-- A turn of the environment: it answers the step the sequencer waits in, or gives no answer for now (R155, R271).
`others` is what other bus masters, and the sensor, write in a turn without an answer (R71); before CLOSE's two steps, which
ask nothing, such a turn is all that the environment does (log 6). -/
inductive EnvTurn
  | answer (a : Answer)
  | silent (others : List (Loc × Byte))
deriving DecidableEq, Repr

/-- A host action (R272). `write` waits for `BUSY = 0`, as the host's duty demands; `hastyWrite` does not wait (R38,
U3); `reset` is the reset event (R250), with the draw whether a write transaction it cuts short took effect (R253). -/
inductive HostAction
  | write (r : HostReg) (w : Word)
  | hastyWrite (r : HostReg) (w : Word)
  | reset (took : Bool)
deriving DecidableEq, Repr

/-- The machine. -/
structure State where
  /-- The command being executed; `BUSY` is `current.isSome` (R31, R37). -/
  current : Option Instr
  /-- `STATUS.LIFECYCLE` (R31, R32). -/
  lifecycle : Lifecycle
  /-- `STATUS.REV` (R31). -/
  rev : BoardRev
  /-- `STATUS.DEBUG` (R31). -/
  debug : Bool
  /-- `STATUS.BUS_OPEN` (R31). -/
  busOpen : Bool
  /-- `STATUS.GPIO_OPEN` (R31). -/
  gpioOpen : Bool
  /-- `STATUS.ERRKIND` (R31, R33). -/
  errKind : ErrKind
  /-- `ERRCODE` (R34). -/
  errCode : Word
  /-- `TEMP` (R35). -/
  temp : Word
  /-- `BUSIDX` (R36). -/
  busIdx : Word
  /-- `GPIOPIN` (R36). -/
  gpioPin : Word
  /-- The bus index the handle records at OPEN (R15, R136; log 22). -/
  handleBus : Word
  /-- The GPIO line the handle owns (R36, R78; log 22). -/
  handlePin : Word
  /-- `STEP` (R27). -/
  step : BitVec 3
  /-- Working registers (R24). -/
  v0 : Byte
  v1 : Byte
  tb0 : Byte
  tb1 : Byte
  lvl : BitVec 6
  c : BitVec 6
  r : BitVec 6
  /-- The enable line (R40). -/
  en : EnLine
  /-- The call the sequencer waits for, if it waits (R262, R272, R273). -/
  inFlight : Option Call
  /-- The devices (R44, R45). -/
  dev : Devices
  /-- Transactions, GPIO writes and platform actions issued, oldest first (R272). -/
  traffic : List Traffic
  /-- Trace records emitted, oldest first (R156, R157). -/
  trace : List TraceRecord
  /-- The sticky mark of `NoFaultRecorded` (R273): a command ended with IllegalCommand or BadState. Not CALCTL state. -/
  faultSeen : Bool
  /-- Host actions still to come (R272). The model's own field (log 5). -/
  host : List HostAction
  /-- The environment's turns still to come. The model's own field (log 4). -/
  env : List EnvTurn
deriving DecidableEq, Repr

/-- Why a step stops with a fault. -/
inductive Fault
  /-- Raised by `step` alone, by no command's meaning: the sequencer waits in a call the environment never answers, and
  the host does nothing that could end the wait (R262, U15 `stuck`). Safe: the real block stays so for ever. -/
  | unanswered
deriving DecidableEq, Repr

/-- Why a step is refused. -/
inductive Refusal
  /-- Raised by `exec` for a command without a meaning; no command of this model is one. -/
  | notModelled (mnemonic : String)
  /-- Raised by `step` when the host breaks its duty and writes CMD, BUSIDX or GPIOPIN while `BUSY = 1` (R38, U3 `refuse`).
  Unsafe: such runs are left out (log 18). -/
  | hostWriteWhileBusy
deriving DecidableEq, Repr

/-- The machine right after reset (R251). Registers with "no value" hold 0 (log 1, log 2), the devices list nothing
(log 3), the attenuator's latch holds 0 and has not been latched (log 12), and no action or answer is on its way (log 4,
log 5). -/
def State.reset : State where
  current := none
  lifecycle := .unopened
  rev := .d
  debug := false
  busOpen := false
  gpioOpen := false
  errKind := .noError
  errCode := 0#32
  temp := 0#32
  busIdx := 0#32
  gpioPin := 0#32
  handleBus := 0#32
  handlePin := 0#32
  step := 0#3
  v0 := 0#8
  v1 := 0#8
  tb0 := 0#8
  tb1 := 0#8
  lvl := 0#6
  c := 0#6
  r := 0#6
  en := .unknown
  inFlight := none
  dev := { mem := [], att := 0#6, everLatched := false }
  traffic := []
  trace := []
  faultSeen := false
  host := []
  env := []

end Sys2Proof.Machine
end

