-- ==== Sys2Proof/Machine/Flags.lean ====
section
/-! DEFINITION. CALCTL has no arithmetic condition codes (R39 of spec/10_state.md); its flags are the fields of STATUS.
This file holds their packing and what the host reads from each register. -/

namespace Sys2Proof.Machine

/-- `BUSY`: a command is executing (R31, R37). -/
def State.busy (s : State) : Bool := s.current.isSome

/-- `LIFECYCLE`'s two bits (R31). -/
def Lifecycle.code : Lifecycle → BitVec 2
  | .unopened => 0#2
  | .opened => 1#2
  | .closed => 2#2

/-- `REV`'s bit (R31). -/
def BoardRev.code : BoardRev → BitVec 1
  | .d => 0#1
  | .e => 1#1

/-- `ERRKIND`'s four bits (R33). -/
def ErrKind.code : ErrKind → BitVec 4
  | .noError => 0#4
  | .invalidRevision => 1#4
  | .busOpenFailed => 2#4
  | .gpioOpenFailed => 3#4
  | .transportError => 4#4
  | .gpioWriteFailed => 5#4
  | .illegalCommand => 6#4
  | .badState => 7#4

/-- `STATUS` (R31): reserved bits 31:12 and 7 read 0. -/
def State.status (s : State) : Word :=
  0#20 ++ (s.errKind.code ++ (0#1 ++ (BitVec.ofBool s.gpioOpen ++ (BitVec.ofBool s.busOpen ++
    (BitVec.ofBool s.debug ++ (s.rev.code ++ (s.lifecycle.code ++ BitVec.ofBool s.busy)))))))

/-- A host register's index (R30). -/
def HostReg.index : HostReg → Nat
  | .cmd => 0
  | .status => 1
  | .errCode => 2
  | .temp => 3
  | .busIdx => 4
  | .gpioPin => 5

/-- What a host read of a register returns; `CMD` is write only and reads 0 (R30). A read has no side effect. -/
def hostRead (s : State) : HostReg → Word
  | .cmd => 0#32
  | .status => s.status
  | .errCode => s.errCode
  | .temp => s.temp
  | .busIdx => s.busIdx
  | .gpioPin => s.gpioPin

/-- The host's duty covers these registers while `BUSY = 1` (R38). -/
def HostReg.guarded : HostReg → Bool
  | .cmd => true
  | .status => false
  | .errCode => false
  | .temp => false
  | .busIdx => true
  | .gpioPin => true

/-- The code as `ERRCODE` holds it (R34). -/
def OsCode.toWord (e : OsCode) : Word := BitVec.ofNat 32 (e.pred.val + 1)

end Sys2Proof.Machine
end

