-- ==== Sys2Proof/Machine/Operands.lean ====
section
/-! DEFINITION. What the commands compute from their operands and from the bytes they read: pure functions on bytes and
integers (R92 to R95, R170, R184, R197 to R202, R212, R213). -/

namespace Sys2Proof.Machine

/-- The lifecycle state in which a command is permitted (R231). -/
def gate : Instr → Lifecycle
  | .openDev _ => .unopened
  | .close => .opened
  | .enable => .opened
  | .disable => .opened
  | .setup => .opened
  | .select _ => .opened
  | .setPulse => .opened
  | .setVco => .opened
  | .setAtten _ => .opened
  | .readTemp _ => .opened
  | .enableDebug _ => .opened

/-- Revision normalisation, total over the 256 codes; `none` is InvalidRevision (R92, R131). -/
def normalise (revch : Byte) : Option BoardRev :=
  if revch = 0x00#8 ∨ revch = 0x45#8 ∨ revch = 0x65#8 then some .e
  else if revch = 0x44#8 ∨ revch = 0x64#8 then some .d
  else none

/-- The mode primitive's edit of `OUT1`: pulse sets 0x40 and clears 0x08, VCO clears 0x40 and sets 0x08 (R170). -/
def modeEdit (pulseOn : Bool) (old : Byte) : Byte :=
  if pulseOn then (old ||| 0x40#8) &&& 0xF7#8 else (old &&& 0xBF#8) ||| 0x08#8

/-- The bits revision E forces high before any further edit (R183). -/
def forceE (b : Byte) : Byte := b ||| 0x0C#8

/-- The edit table of SELECT, `OUT0`'s column (R184). -/
def editV0 : BoardRev → Channel → Byte → Byte
  | .d, .coax, a => a &&& 0xFD#8
  | .d, .fiber0, a => a &&& 0xFD#8
  | .d, .fiber1, a => a ||| 0x02#8
  | .d, .none, a => a &&& 0xFD#8
  | .e, .coax, a => a &&& 0xFD#8
  | .e, .fiber0, a => a ||| 0x02#8
  | .e, .fiber1, a => a ||| 0x02#8
  | .e, .none, a => a &&& 0xFD#8

/-- The edit table of SELECT, `OUT1`'s column; on revision E it is applied to the forced value (R184). -/
def editV1 : BoardRev → Channel → Byte → Byte
  | .d, .coax, b => b &&& 0x7F#8
  | .d, .fiber0, b => b ||| 0x80#8
  | .d, .fiber1, b => b ||| 0x20#8
  | .d, .none, b => (b &&& 0x7F#8) &&& 0xDF#8
  | .e, .coax, b => b &&& 0x7F#8
  | .e, .fiber0, b => (b &&& 0x2F#8) &&& 0xFB#8
  | .e, .fiber1, b => (b &&& 0x2F#8) &&& 0xFB#8
  | .e, .none, b => (b &&& 0x7F#8) &&& 0xDF#8

/-- `LVL`: the level clamped to 0..63, silently (R197). -/
def clampLevel (level : Int) : BitVec 6 :=
  BitVec.ofInt 6 (if level < 0 then 0 else if Config.attenMax < level then Config.attenMax else level)

/-- `C = 63 - LVL` (R198). -/
def complementLevel (lvl : BitVec 6) : BitVec 6 := 63#6 - lvl

/-- `rev6(C)[k] = C[5 - k]` (R199). -/
def rev6 (c : BitVec 6) : BitVec 6 :=
  BitVec.ofBool (c.getLsbD 0) ++ (BitVec.ofBool (c.getLsbD 1) ++ (BitVec.ofBool (c.getLsbD 2) ++
    (BitVec.ofBool (c.getLsbD 3) ++ (BitVec.ofBool (c.getLsbD 4) ++ BitVec.ofBool (c.getLsbD 5)))))

/-- The byte SET_ATTEN sends: the switch bit kept, `R` in bits 7:2 (R197, R200). -/
def mergeAtten (a : Byte) (r : BitVec 6) : Byte := (a &&& 0x02#8) ||| ((r.setWidth 8) <<< 2)

/-- The load-enable bit of `OUT0` (R105). -/
def loadEnable : Byte := 0x01#8

/-- The decoded temperature, 1/16 degree C per unit: `sext_13` of the sign bit, the integer nibble and the fractional
byte (R111, R213). -/
def decodeTemp (b0 b1 : Byte) : Word :=
  BitVec.signExtend 32 (BitVec.ofBool (b0.getLsbD 4) ++ (b0.extractLsb' 0 4 ++ b1))

end Sys2Proof.Machine
end

