-- ==== Sys2Proof/Machine/Ops.lean ====
section
/-! DEFINITION. The operations every command is built from: the I2C register space and the devices in it, the
environment's answers, the start and the two ends of a command, the transport primitives and the GPIO primitive, and
the sequencer that runs a command's steps. -/

namespace Sys2Proof.Machine

/-! ### The I2C register space -/

/-- The key of a byte of the space (R60; log 14). -/
def Loc.key (l : Loc) : Nat := (l.dev.toNat * 256 + l.off.toNat) * 2 + l.idx.val

/-- The five locations CALCTL addresses (R43), byte by byte. -/
def Loc.out0 : Loc := { dev := Config.expander0, off := Config.regOut, idx := 0 }
def Loc.cfg0 : Loc := { dev := Config.expander0, off := Config.regCfg, idx := 0 }
def Loc.out1 : Loc := { dev := Config.expander1, off := Config.regOut, idx := 0 }
def Loc.cfg1 : Loc := { dev := Config.expander1, off := Config.regCfg, idx := 0 }
def Loc.temp0 : Loc := { dev := Config.sensor, off := Config.regTemp, idx := 0 }
def Loc.temp1 : Loc := { dev := Config.sensor, off := Config.regTemp, idx := 1 }

/-- The byte at a key. -/
def Memory.get : Memory → Nat → Byte
  | [], _ => Config.unlistedByte
  | cell :: rest, a => if cell.1 = a then cell.2 else Memory.get rest a

/-- Put a cell in front, unless it holds what an unlisted key reads as. -/
def Memory.cons (a : Nat) (v : Byte) (m : Memory) : Memory :=
  if v = Config.unlistedByte then m else (a, v) :: m

/-- Store a byte, keeping the canonical form. -/
def Memory.set : Memory → Nat → Byte → Memory
  | [], a, v => Memory.cons a v []
  | cell :: rest, a, v =>
    if a < cell.1 then Memory.cons a v (cell :: rest)
    else if a = cell.1 then Memory.cons a v rest
    else cell :: Memory.set rest a v

/-- The canonical form: keys inside the space and strictly rising, no cell equal to what an unlisted key reads as. -/
abbrev Memory.wf (m : Memory) : Prop :=
  m.Pairwise (fun x y => x.1 < y.1) ∧ ∀ cell ∈ m, cell.1 < Config.spaceSize ∧ cell.2 ≠ Config.unlistedByte

/-! ### The devices -/

/-- A value written to `OUT0` with load-enable set latches the attenuator (R75). -/
def latches (l : Loc) (v : Byte) : Bool := decide (l = Loc.out0) && v.getLsbD 0

/-- The attenuator's code after a write: bits 7:2 of a value that latches it (R75). -/
def latched (l : Loc) (v : Byte) (old : BitVec 6) : BitVec 6 := if latches l v then v.extractLsb' 2 6 else old

/-- A device register byte as it stands (R73). -/
def Devices.read (d : Devices) (l : Loc) : Byte := d.mem.get l.key

/-- A write that reaches its device (R73, R75). -/
def Devices.write (d : Devices) (l : Loc) (v : Byte) : Devices where
  mem := d.mem.set l.key v
  att := latched l v d.att
  everLatched := d.everLatched || latches l v

/-- What other masters and the sensor wrote, in order (R71). -/
def Devices.disturb (d : Devices) (ws : List (Loc × Byte)) : Devices :=
  ws.foldl (fun d w => d.write w.1 w.2) d

/-- What a call does to the devices where it takes effect: a write stores its byte, nothing else changes a device
(R70, R73, R80). -/
def Call.effect (d : Devices) : Call → Devices
  | .write dev off val => d.write { dev := dev, off := off, idx := 0 } val
  | .read _ _ _ => d
  | .gpioWrite _ => d
  | .bootstrap _ => d
  | .busAcquire _ => d
  | .gpioAcquire _ => d

/-- The level pin `i` of an expander is driven to, `none` where its configuration bit is 1 and the spec says nothing
(R74, U18). -/
def Devices.pinLevel (d : Devices) (expander : DevAddr) (i : Nat) : Option Bool :=
  if (d.read { dev := expander, off := Config.regCfg, idx := 0 }).getLsbD i then none
  else some ((d.read { dev := expander, off := Config.regOut, idx := 0 }).getLsbD i)

/-! ### Messages, traffic and trace -/

/-- Shape W (R102): one message, the offset byte first, then the value. -/
def writeMessages (dev : DevAddr) (off val : Byte) : List Message :=
  [{ addr := dev, read := false, length := 2, buffer := [off, val] }]

/-- The byte count of a `readN` (R152). -/
def ReadLen.count : ReadLen → Nat
  | .one => 1
  | .two => 2

/-- Shape WR (R103): the offset write, then the read, in one transaction. -/
def readMessages (dev : DevAddr) (off : Byte) (len : ReadLen) (received : List Byte) : List Message :=
  [{ addr := dev, read := false, length := 1, buffer := [off] },
   { addr := dev, read := true, length := len.count, buffer := received }]

/-- The trace record of a message (R157). -/
def Message.record (m : Message) : TraceRecord where
  address := m.addr
  flags := if m.read then 1#8 else 0#8
  length := m.length
  bytes := m.buffer

/-- Note a transaction that succeeded; with `DEBUG = 1` it is traced, one record a message (R156, R157), when it is answered
and not when it is issued (DESIGN CHOICE, log 28). -/
def State.noteOk (msgs : List Message) (s : State) : State :=
  { s with
    traffic := s.traffic ++ [.i2c s.handleBus msgs none]
    trace := if s.debug then s.trace ++ msgs.map Message.record else s.trace }

/-- Note a transaction that failed; what the trace shows of it is the environment's draw (R157, U9), when it is answered
(log 28). -/
def State.noteFail (msgs : List Message) (e : OsCode) (shown : List TraceRecord) (s : State) : State :=
  { s with
    traffic := s.traffic ++ [.i2c s.handleBus msgs (some e)]
    trace := if s.debug then s.trace ++ shown else s.trace }

/-- Note a GPIO write or a platform action; the trace covers I2C transactions only (R156). -/
def State.note (t : Traffic) (s : State) : State := { s with traffic := s.traffic ++ [t] }

/-! ### Start and end of a command; errors -/

/-- A command starts: `BUSY <- 1; ERRKIND <- 0; ERRCODE <- 0; STEP <- 0` (R37). This is also all there is to a return
from an error: the next command clears it (R228). -/
def State.start (i : Instr) (s : State) : State :=
  { s with current := some i, errKind := .noError, errCode := 0#32, step := 0#3 }

/-- `raise K(info)` (R226): the one way a command ends in an error. `STEP` is 0 whenever `BUSY = 0` (R272; log 8). -/
def State.raise (k : ErrKind) (info : Word) (s : State) : State :=
  { s with current := none, errKind := k, errCode := info, step := 0#3 }

/-- A command ends with success (R28, R37). -/
def State.finish (s : State) : State :=
  { s with current := none, errKind := .noError, errCode := 0#32, step := 0#3 }

/-- The sticky mark of `NoFaultRecorded` (R273). -/
def State.markFault (s : State) : State := { s with faultSeen := true }

/-- A step succeeded: `STEP <- STEP + 1` (R28). -/
def State.advance (s : State) : State := { s with step := s.step + 1#3 }

/-! ### Asking the environment -/

/-- What comes of asking the environment: the sequencer waits, or goes on with an answer. -/
inductive Ask
  | waits (s : State)
  | answered (a : Answer) (s : State)
deriving DecidableEq, Repr

/-- Ask the environment for the outcome of a call (R76). Without an answer the call stays in flight (R155, R262), in no list
and with no trace record (DESIGN CHOICE, log 19, log 28); with one, the call is complete. What other masters did in the
turn stands in both cases (R71). -/
def ask (call : Call) (s : State) : Ask :=
  match s.env with
  | [] => .waits { s with inFlight := some call }
  | .silent ws :: rest => .waits { s with inFlight := some call, env := rest, dev := s.dev.disturb ws }
  | .answer a :: rest => .answered a { s with inFlight := none, env := rest, dev := s.dev.disturb a.others }

/-- What other masters write before a step that asks nothing (R71): the next turn, if it is one without an answer. -/
def meanwhile : List EnvTurn → List (Loc × Byte)
  | [] => []
  | .silent ws :: _ => ws
  | .answer _ :: _ => []

/-- The turns left after it. -/
def afterMeanwhile : List EnvTurn → List EnvTurn
  | [] => []
  | .silent _ :: rest => rest
  | .answer a :: rest => .answer a :: rest

/-- The environment's step before a sequencer step that asks nothing, "enabled between any two sequencer steps" (R71;
log 6). -/
def State.interlude (s : State) : State :=
  { s with env := afterMeanwhile s.env, dev := s.dev.disturb (meanwhile s.env) }

/-- What comes of one step: the sequencer goes on to the next, or stops here (the command ended, or it waits). -/
inductive Progress
  | go (s : State)
  | halt (s : State)
deriving DecidableEq, Repr

/-- Local computation after a step that succeeded (R27; log 10). -/
def Progress.andThen (f : State → State) : Progress → Progress
  | .go s => .go (f s)
  | .halt s => .halt s

/-! ### The transport primitives -/

/-- `write(address, register, value)`, pseudocode `MemWrite` (R150). A failed write ends the command with
TransportError(e) and leaves the register old or new (R77, R224). Its trace record comes with the answer (log 28). -/
def memWrite (dev : DevAddr) (off val : Byte) (s : State) : Progress :=
  match ask (.write dev off val) s with
  | .waits s => .halt s
  | .answered a s =>
    if a.ok then
      .go ({ s with dev := s.dev.write { dev := dev, off := off, idx := 0 } val }.noteOk
        (writeMessages dev off val)).advance
    else
      .halt ({ s with dev := if a.took then s.dev.write { dev := dev, off := off, idx := 0 } val else s.dev }.noteFail
        (writeMessages dev off val) a.code a.failTrace |>.raise .transportError a.code.toWord)

/-- The bytes a `readN` receives, in the order received (R63, R73). -/
def Devices.receive (d : Devices) (dev : DevAddr) (off : Byte) : ReadLen → List Byte
  | .one => [d.read { dev := dev, off := off, idx := 0 }]
  | .two => [d.read { dev := dev, off := off, idx := 0 }, d.read { dev := dev, off := off, idx := 1 }]

/-- `readN(address, register, count)`, pseudocode `MemRead` (R152): `deliver` puts the received bytes into the working
registers the calling step names. A failed read delivers nothing and changes no device (R77). Its trace records come with
the answer (log 28). -/
def memRead (dev : DevAddr) (off : Byte) (len : ReadLen) (deliver : List Byte → State → State) (s : State) : Progress :=
  match ask (.read dev off len) s with
  | .waits s => .halt s
  | .answered a s =>
    if a.ok then
      .go (deliver (s.dev.receive dev off len)
        (s.noteOk (readMessages dev off len (s.dev.receive dev off len)))).advance
    else
      .halt (s.noteFail (readMessages dev off len []) a.code a.failTrace |>.raise .transportError a.code.toWord)

/-! ### The GPIO primitive and the platform actions -/

/-- The count of `L` offered bytes that the platform accepts, at most `L`; `none` is a refusal (R78; log 25). -/
def acceptedCount (a : Answer) (offered : Nat) : Option Nat := a.accepted.map (fun n => min n offered)

/-- `GpioWrite(bytes)` (R78): it succeeds if and only if every byte is accepted, and then drives the line as its literal
says (R79); otherwise the line is unknown and GpioWriteFailed is raised (R225). -/
def gpioWrite (bytes : List Byte) (line : EnLine) (s : State) : Progress :=
  match ask (.gpioWrite bytes) s with
  | .waits s => .halt s
  | .answered a s =>
    if acceptedCount a bytes.length = some bytes.length then
      .go ({ s with en := line }.note (.gpioWrite s.handlePin bytes (acceptedCount a bytes.length))).advance
    else
      .halt (({ s with en := .unknown }.note (.gpioWrite s.handlePin bytes (acceptedCount a bytes.length))).raise
        .gpioWriteFailed 0#32)

/-- `GpioBootstrap(pin)` (R133): its outcome is not examined. -/
def gpioBootstrap (s : State) : Progress :=
  match ask (.bootstrap s.gpioPin) s with
  | .waits s => .halt s
  | .answered _ s => .go (s.note (.bootstrap s.gpioPin)).advance

/-- `BusAcquire(idx)` (R134): on failure BusOpenFailed(e), nothing to release. -/
def busAcquire (s : State) : Progress :=
  match ask (.busAcquire s.busIdx) s with
  | .waits s => .halt s
  | .answered a s =>
    if a.ok then .go ({ s with busOpen := true }.note (.busAcquire s.busIdx none)).advance
    else .halt ((s.note (.busAcquire s.busIdx (some a.code))).raise .busOpenFailed a.code.toWord)

/-- `GpioAcquire(pin)` (R135): on failure the bus is released first, then GpioOpenFailed without a code. -/
def gpioAcquire (s : State) : Progress :=
  match ask (.gpioAcquire s.gpioPin) s with
  | .waits s => .halt s
  | .answered a s =>
    if a.ok then .go ({ s with gpioOpen := true }.note (.gpioAcquire s.gpioPin true)).advance
    else .halt ((({ s with busOpen := false }.note (.gpioAcquire s.gpioPin false)).note
      (.busRelease s.busIdx)).raise .gpioOpenFailed 0#32)

/-- `GpioRelease()` (R138): it has no failure, and other masters may act before it (R71). -/
def gpioRelease (s : State) : Progress :=
  .go ({ s.interlude with gpioOpen := false }.note (.gpioRelease s.handlePin)).advance

/-- `BusRelease()` (R138): it has no failure, and other masters may act before it (R71). -/
def busRelease (s : State) : Progress :=
  .go ({ s.interlude with busOpen := false }.note (.busRelease s.handleBus)).advance

/-! ### The sequencer -/

/-- Run steps until the command ends or waits (R28). -/
def runSteps : Nat → (State → Progress) → State → State
  | 0, _, s => s
  | n + 1, f, s =>
    match f s with
    | .go s' => runSteps n f s'
    | .halt s' => s'

/-- More than the steps of any command: SELECT on revision E has five, and its end (R27, R181). -/
def maxSteps : Nat := 6

/-- A command starts, or goes on where it waited. -/
def State.enter (i : Instr) (s : State) : State := if s.busy then s else s.start i

/-- Run a command whose steps are `f` (R37, R230): the lifecycle check comes first, BadState changes nothing else
(R231); then the steps in order, from `STEP` on. -/
def runCommand (i : Instr) (f : State → Progress) (s : State) : State :=
  if s.lifecycle = gate i then runSteps maxSteps f (s.enter i)
  else s.markFault.raise .badState 0#32

/-- A word that is no command ends with IllegalCommand and no other effect (R97). -/
def illegalCommand (s : State) : State := s.markFault.raise .illegalCommand 0#32

end Sys2Proof.Machine
end

