-- ==== Sys2Proof/Machine/Atten.lean ====
section
/-! DEFINITION. SET_ATTEN (spec/44_atten.md): one read and the three writes fill, latch, release. -/

namespace Sys2Proof.Machine

/-- The computation of step 0 (R196): `LVL`, `C`, `R` from the level, `V0` from the byte read and `R`. -/
def deliverAtten (level : Int) (bytes : List Byte) (s : State) : State :=
  { s with
    lvl := clampLevel level
    c := complementLevel (clampLevel level)
    r := rev6 (complementLevel (clampLevel level))
    v0 := mergeAtten (bytes.headD 0#8) (rev6 (complementLevel (clampLevel level))) }

/-- SET_ATTEN's steps, all on Expander-0's output register (R196, R201). -/
def setAttenStep (level : Int) (s : State) : Progress :=
  match s.step.toNat with
  | 0 => memRead Config.expander0 Config.regOut .one (deliverAtten level) s
  | 1 => memWrite Config.expander0 Config.regOut s.v0 s
  | 2 => memWrite Config.expander0 Config.regOut (s.v0 ||| loadEnable) s
  | 3 => memWrite Config.expander0 Config.regOut s.v0 s
  | _ => .halt s.finish

/-- SET_ATTEN (R195, R196). -/
def execSetAtten (level : Int) (s : State) : Host.Outcome State Fault Refusal :=
  .next (runCommand (.setAtten level) (setAttenStep level) s)

end Sys2Proof.Machine
end

