-- ==== Sys2Proof/Machine/Engine.lean ====
section
/-! DEFINITION. The engine commands SETUP, SET_PULSE, SET_VCO (spec/42_setup_mode.md). -/

namespace Sys2Proof.Machine

/-- SETUP's four writes, strictly in this order (R166). -/
def setupStep (s : State) : Progress :=
  match s.step.toNat with
  | 0 => memWrite Config.expander0 Config.regOut 0x00#8 s
  | 1 => memWrite Config.expander0 Config.regCfg 0x00#8 s
  | 2 => memWrite Config.expander1 Config.regOut 0x00#8 s
  | 3 => memWrite Config.expander1 Config.regCfg 0x00#8 s
  | _ => .halt s.finish

/-- SETUP (R166). -/
def execSetup (s : State) : Host.Outcome State Fault Refusal := .next (runCommand .setup setupStep s)

/-- `V1` takes the byte read, edited for the mode (R170). -/
def deliverMode (pulseOn : Bool) (bytes : List Byte) (s : State) : State :=
  { s with v1 := modeEdit pulseOn (bytes.headD 0#8) }

/-- The steps of the mode primitive `set_mode(p)` (R170): one read, one write, of Expander-1's output register. -/
def modeStep (pulseOn : Bool) (s : State) : Progress :=
  match s.step.toNat with
  | 0 => memRead Config.expander1 Config.regOut .one (deliverMode pulseOn) s
  | 1 => memWrite Config.expander1 Config.regOut s.v1 s
  | _ => .halt s.finish

/-- SET_PULSE: `set_mode(1)` (R171). -/
def execSetPulse (s : State) : Host.Outcome State Fault Refusal := .next (runCommand .setPulse (modeStep true) s)

/-- SET_VCO: `set_mode(0)` (R172). -/
def execSetVco (s : State) : Host.Outcome State Fault Refusal := .next (runCommand .setVco (modeStep false) s)

end Sys2Proof.Machine
end

