-- ==== Sys2Proof/Machine/Handle.lean ====
section
/-! DEFINITION. The handle commands OPEN, CLOSE, ENABLE, DISABLE, ENABLE_DEBUG (spec/40_handle.md). -/

namespace Sys2Proof.Machine

/-- OPEN succeeded (R130, R136): the handle records the revision, the bus and the line. -/
def State.opened (rev : BoardRev) (s : State) : State :=
  { s with rev := rev, debug := false, lifecycle := .opened, handleBus := s.busIdx, handlePin := s.gpioPin }

/-- OPEN's steps after normalisation (R130): bootstrap, bus, GPIO line, in that order (R132). -/
def openSteps (rev : BoardRev) (s : State) : Progress :=
  match s.step.toNat with
  | 0 => gpioBootstrap s
  | 1 => busAcquire s
  | 2 => gpioAcquire s
  | _ => .halt (s.opened rev).finish

/-- OPEN: the revision is checked before anything is touched (R131). -/
def openStep (revch : Byte) (s : State) : Progress :=
  match normalise revch with
  | none => .halt (s.raise .invalidRevision 0#32)
  | some rev => openSteps rev s

/-- OPEN (R130). -/
def execOpen (revch : Byte) (s : State) : Host.Outcome State Fault Refusal :=
  .next (runCommand (.openDev revch) (openStep revch) s)

/-- CLOSE's steps (R138): the GPIO resource, then the bus, then the handle. -/
def closeStep (s : State) : Progress :=
  match s.step.toNat with
  | 0 => gpioRelease s
  | 1 => busRelease s
  | _ => .halt { s with lifecycle := .closed, en := .unknown }.finish

/-- CLOSE (R138). -/
def execClose (s : State) : Host.Outcome State Fault Refusal := .next (runCommand .close closeStep s)

/-- ENABLE's step (R140). -/
def enableStep (s : State) : Progress :=
  match s.step.toNat with
  | 0 => gpioWrite Config.literalHigh .high s
  | _ => .halt s.finish

/-- ENABLE (R140). -/
def execEnable (s : State) : Host.Outcome State Fault Refusal := .next (runCommand .enable enableStep s)

/-- DISABLE's step (R141). -/
def disableStep (s : State) : Progress :=
  match s.step.toNat with
  | 0 => gpioWrite Config.literalLow .low s
  | _ => .halt s.finish

/-- DISABLE (R141). -/
def execDisable (s : State) : Host.Outcome State Fault Refusal := .next (runCommand .disable disableStep s)

/-- ENABLE_DEBUG has no step: `DEBUG <- DBG`, `STEP` stays 0 (R143). -/
def enableDebugStep (dbg : Bool) (s : State) : Progress := .halt { s with debug := dbg }.finish

/-- ENABLE_DEBUG (R143). -/
def execEnableDebug (dbg : Bool) (s : State) : Host.Outcome State Fault Refusal :=
  .next (runCommand (.enableDebug dbg) (enableDebugStep dbg) s)

end Sys2Proof.Machine
end

