-- ==== Sys2Proof/Machine/Select.lean ====
section
/-! DEFINITION. SELECT (spec/43_select.md): five steps on revision E, four on revision D, where step 2 is skipped. -/

namespace Sys2Proof.Machine

/-- `V0` takes the byte read (R181, step 0). -/
def deliverV0 (bytes : List Byte) (s : State) : State := { s with v0 := bytes.headD 0#8 }

/-- `V1` takes the byte read (R181, step 1). -/
def deliverV1 (bytes : List Byte) (s : State) : State := { s with v1 := bytes.headD 0#8 }

/-- The channel's edits of both working registers (R184). -/
def editChannel (ch : Channel) (s : State) : State :=
  { s with v0 := editV0 s.rev ch s.v0, v1 := editV1 s.rev ch s.v1 }

/-- After both reads (R181, R183): revision E forces 0x0C high and writes at step 2; revision D edits and goes to
step 3. -/
def afterReads (ch : Channel) (s : State) : State :=
  match s.rev with
  | .e => { s with v1 := forceE s.v1 }
  | .d => { editChannel ch s with step := 3#3 }

/-- SELECT's steps (R181). -/
def selectStep (ch : Channel) (s : State) : Progress :=
  match s.step.toNat with
  | 0 => memRead Config.expander0 Config.regOut .one deliverV0 s
  | 1 => (memRead Config.expander1 Config.regOut .one deliverV1 s).andThen (afterReads ch)
  | 2 => (memWrite Config.expander1 Config.regOut s.v1 s).andThen (editChannel ch)
  | 3 => memWrite Config.expander0 Config.regOut s.v0 s
  | 4 => memWrite Config.expander1 Config.regOut s.v1 s
  | _ => .halt s.finish

/-- SELECT (R180, R181). -/
def execSelect (ch : Channel) (s : State) : Host.Outcome State Fault Refusal :=
  .next (runCommand (.select ch) (selectStep ch) s)

end Sys2Proof.Machine
end

