-- ==== Sys2Proof/Machine/Temp.lean ====
section
/-! DEFINITION. READ_TEMP (spec/45_temp.md): one two-byte read and a pure decode. -/

namespace Sys2Proof.Machine

/-- `TB0`, `TB1` take the bytes in the order received; with write-back the decoded temperature goes to `TEMP`
(R211, R214). -/
def deliverTemp (wb : Bool) (bytes : List Byte) (s : State) : State :=
  { s with
    tb0 := bytes.headD 0#8
    tb1 := bytes.tail.headD 0#8
    temp := if wb then decodeTemp (bytes.headD 0#8) (bytes.tail.headD 0#8) else s.temp }

/-- READ_TEMP's step (R211). -/
def readTempStep (wb : Bool) (s : State) : Progress :=
  match s.step.toNat with
  | 0 => memRead Config.sensor Config.regTemp .two (deliverTemp wb) s
  | _ => .halt s.finish

/-- READ_TEMP (R210, R211). -/
def execReadTemp (wb : Bool) (s : State) : Host.Outcome State Fault Refusal :=
  .next (runCommand (.readTemp wb) (readTempStep wb) s)

end Sys2Proof.Machine
end

