-- ==== Sys2Proof/Machine/Dispatch.lean ====
section
/-! DEFINITION. The meaning of each command: one arm per constructor of `Instr`. -/

namespace Sys2Proof.Machine

def exec (i : Instr) (s : State) : Host.Outcome State Fault Refusal :=
  match i with
  | .openDev revch => Sys2Proof.Machine.execOpen revch s
  | .close => Sys2Proof.Machine.execClose s
  | .enable => Sys2Proof.Machine.execEnable s
  | .disable => Sys2Proof.Machine.execDisable s
  | .setup => Sys2Proof.Machine.execSetup s
  | .select ch => Sys2Proof.Machine.execSelect ch s
  | .setPulse => Sys2Proof.Machine.execSetPulse s
  | .setVco => Sys2Proof.Machine.execSetVco s
  | .setAtten level => Sys2Proof.Machine.execSetAtten level s
  | .readTemp wb => Sys2Proof.Machine.execReadTemp wb s
  | .enableDebug dbg => Sys2Proof.Machine.execEnableDebug dbg s

end Sys2Proof.Machine
end

