-- ==== Sys2Proof/Machine/HostPort.lean ====
section
/-! DEFINITION. The host's side of the machine: register writes, the reset event, and whose turn it is
(spec/10_state.md, spec/70_reset_and_hazards.md). -/

namespace Sys2Proof.Machine

/-- A write to `CMD` starts the command its word encodes; the decode check comes first (R37, R230). -/
def writeCmd (w : Word) (s : State) : Host.Outcome State Fault Refusal :=
  match decode w with
  | .ok i => exec i s
  | .error _ => .next (illegalCommand s)

/-- A host write while `BUSY = 0` (R30, R36, R37). A write to a read-only register changes nothing (log 17). -/
def hostWrite (r : HostReg) (w : Word) (s : State) : Host.Outcome State Fault Refusal :=
  match r with
  | .cmd => writeCmd w s
  | .busIdx => .next { s with busIdx := w }
  | .gpioPin => .next { s with gpioPin := w }
  | .status => .next s
  | .errCode => .next s
  | .temp => .next s

/-- The devices after a reset that cuts short the call in flight: a write may have taken effect (R253). -/
def cutShort (took : Bool) (s : State) : Devices :=
  match s.inFlight with
  | some call => if took then call.effect s.dev else s.dev
  | none => s.dev

/-- The reset event (R250 to R254): CALCTL's state is as R251 says, the devices are not touched by reset, resources are
released (log 16), and a new run begins (R272). -/
def resetEvent (took : Bool) (s : State) : State :=
  { State.reset with dev := cutShort took s, host := s.host, env := s.env }

/-- The sequencer's turn while `BUSY = 1`: it goes on with its command if the environment has anything to say; if not, no
agent can move (R262, U15). -/
def sequencerTurn (i : Instr) (s : State) : Host.Outcome State Fault Refusal :=
  match s.env with
  | [] => .fault .unanswered
  | _ :: _ => exec i s

/-- One step of the machine. With `BUSY = 0` the host's next action is taken, and an idle machine without one stays idle
(R254, R272). With `BUSY = 1` a reset or a write that breaks the host's duty is taken (R38, R253); any other action
waits, and the sequencer goes on. -/
def machineTurn (s : State) : Host.Outcome State Fault Refusal :=
  match s.current, s.host with
  | _, .reset took :: rest => .next (resetEvent took { s with host := rest })
  | none, [] => .next s
  | none, .write r w :: rest => hostWrite r w { s with host := rest }
  | none, .hastyWrite r w :: rest => hostWrite r w { s with host := rest }
  | some _, .hastyWrite r _ :: rest => if r.guarded then .refused .hostWriteWhileBusy else .next { s with host := rest }
  | some i, .write _ _ :: _ => sequencerTurn i s
  | some i, [] => sequencerTurn i s

/-- The command of the host's numbering, written to `CMD` as the next host action, with the sequencer idle. -/
def placeCommand (nbits w : Nat) (s : State) : State :=
  { s with current := none, inFlight := none, host := .write .cmd (BitVec.ofNat 32 (w % 2 ^ nbits)) :: s.host }

end Sys2Proof.Machine
end

