-- ==== Sys2Proof/Machine/Step.lean ====
section
/-! DEFINITION. One step of the machine, and where it takes its next command from (log 5). -/

namespace Sys2Proof.Machine

/-- One step: a host action with the sequencer's steps for it, or the sequencer going on after a wait (R272). -/
def step (s : State) : Host.Outcome State Fault Refusal := machineTurn s

/-- The machine with a command word as the host's next action. -/
def State.withFetchWord (s : State) (nbits w : Nat) : State := placeCommand nbits w s

end Sys2Proof.Machine
end

