-- ==== Sys2Proof/Machine/Views.lean ====
section
/-! DEFINITION. Two readings of what the machine already holds: the integer an operation of the source returns (R34, R110), and
a transaction as it stands on the wire (R65, R104). No command depends on either. -/

namespace Sys2Proof.Machine

/-! ### The integer return value -/

/-- `ret`: 0 for no error, `-ERRCODE` for TransportError; for the other kinds the source gives no number (R34, R110). -/
def State.returnValue (s : State) : Option Int :=
  match s.errKind with
  | .noError => some 0
  | .transportError => some (-(s.errCode.toNat : Int))
  | .invalidRevision => none
  | .busOpenFailed => none
  | .gpioOpenFailed => none
  | .gpioWriteFailed => none
  | .illegalCommand => none
  | .badState => none

/-! ### The wire -/

/-- What stands on the wire (R104): conditions, bytes the master sends, bytes it receives and acknowledges or not. -/
inductive WireItem
  | start
  | repeatedStart
  | sent (b : Byte)
  | received (b : Byte) (acknowledged : Bool)
  | stop
deriving DecidableEq, Repr

/-- "the master acknowledging all but the last" (R104). -/
def receivedBytes : List Byte → List WireItem
  | [] => []
  | [b] => [.received b false]
  | b :: c :: rest => .received b true :: receivedBytes (c :: rest)

/-- The first byte of a message is the 7-bit address followed by the read/write bit (R65, R104). -/
def addressByte (addr : DevAddr) (read : Bool) : Byte := addr ++ BitVec.ofBool read

/-- A message on the wire, without the condition in front of it (R104). -/
def Message.wire (m : Message) : List WireItem :=
  .sent (addressByte m.addr m.read) :: (if m.read then receivedBytes m.buffer else m.buffer.map .sent)

/-- A transaction on the wire: START, the messages with a repeated START between them, STOP (R104). -/
def wire : List Message → List WireItem
  | [] => []
  | m :: rest => .start :: m.wire ++ rest.flatMap (fun next => .repeatedStart :: next.wire) ++ [.stop]

/-- A byte's bits in the order sent, most significant first (R65). -/
def wireBits (b : Byte) : List Bool := [7, 6, 5, 4, 3, 2, 1, 0].map b.getLsbD

end Sys2Proof.Machine
end

