-- ==== Sys2Proof/Safety.lean ====
section
/-! DEFINITION. The terms claims are stated in: launch premises (R72, R273), the ends of a command, the calls and
locations of each command, and the machine's invariant. -/

namespace Sys2Proof.Machine

/-! ### Launch premises and the end of a run -/

/-- `NothingInFlight` (R273). -/
abbrev State.nothingInFlight (s : State) : Bool := s.inFlight.isNone

/-- The end of a run (R272): no action left, `BUSY = 0`, `STEP = 0`, nothing in flight. -/
abbrev State.runEnded (s : State) : Bool :=
  s.host.isEmpty && !s.busy && s.step == 0#3 && s.nothingInFlight

/-- `NoFaultRecorded` (R273). -/
abbrev State.noFaultRecorded (s : State) : Bool := !s.faultSeen

/-- The host never breaks its duty (`HostObeysBusy`, R38, R273). -/
abbrev State.hostObeysBusy (s : State) : Bool :=
  s.host.all fun action =>
    match action with
    | .write _ _ => true
    | .hastyWrite r _ => !r.guarded
    | .reset _ => true

/-- What other masters and the sensor write in a turn (R71). -/
abbrev EnvTurn.others : EnvTurn → List (Loc × Byte)
  | .answer a => a.others
  | .silent ws => ws

/-- A turn of the environment writes the byte with this key, other than through CALCTL. -/
abbrev EnvTurn.touches (key : Nat) (turn : EnvTurn) : Bool := turn.others.any fun w => w.1.key == key

/-- No other master ever writes the byte with this key. -/
abbrev State.undisturbedAt (s : State) (key : Nat) : Bool := s.env.all fun turn => !turn.touches key

/-- No write of a turn goes to an expander. The sensor and every other device may still change (R73). -/
abbrev EnvTurn.sparesExpanders (turn : EnvTurn) : Bool :=
  turn.others.all fun w => w.1.dev != Config.expander0 && w.1.dev != Config.expander1

/-- `ExclusiveBus`: "no master other than CALCTL issues a transaction to 0x38 or 0x3F" (R72). -/
abbrev State.exclusiveBus (s : State) : Bool := s.env.all EnvTurn.sparesExpanders

/-- `AfterReset` (R273): "the state is that of rule R251", every item to which R251 gives a value. TEMP, the working
registers and the devices have none there. -/
abbrev State.afterReset (s : State) : Bool :=
  !s.busy && s.lifecycle == .unopened && s.rev == .d && !s.debug && !s.busOpen && !s.gpioOpen &&
    s.errKind == .noError && s.errCode == 0#32 && s.busIdx == 0#32 && s.gpioPin == 0#32 && s.step == 0#3 &&
    s.en == .unknown

/-! ### A command that has come to its end -/

/-- A command may start and is permitted (R37, R231). -/
abbrev State.readyFor (s : State) (i : Instr) : Prop := s.current = none ∧ s.lifecycle = gate i

/-- The next step executes this command: it is being executed, or the sequencer is idle and the host's next action writes
its word to `CMD` (R37). -/
abbrev State.runs (s : State) (i : Instr) : Prop :=
  s.current = some i ∨
    s.current = none ∧ ∃ w rest, decode w = .ok i ∧
      (s.host = .write .cmd w :: rest ∨ s.host = .hastyWrite .cmd w :: rest)

/-- `s` after a command has ended with error kind `k` and code `e`, with the turns `rest` still to come, the devices
`dev`, the traffic `sent` and, with `DEBUG = 1`, the trace records `shown` added. Every other field is as in `s`. -/
def State.ended (s : State) (k : ErrKind) (e : Word) (rest : List EnvTurn) (dev : Devices) (sent : List Traffic)
    (shown : List TraceRecord) : State :=
  { s with
    errKind := k
    errCode := e
    step := 0#3
    inFlight := none
    env := rest
    dev := dev
    traffic := s.traffic ++ sent
    trace := if s.debug then s.trace ++ shown else s.trace }

/-- The entry of the traffic for a successful transaction. -/
abbrev State.sent (s : State) (msgs : List Message) : Traffic := .i2c s.handleBus msgs none

/-- The engine commands: those with transport steps (R165). -/
def isEngine : Instr → Bool
  | .openDev _ => false
  | .close => false
  | .enable => false
  | .disable => false
  | .setup => true
  | .select _ => true
  | .setPulse => true
  | .setVco => true
  | .setAtten _ => true
  | .readTemp _ => true
  | .enableDebug _ => false

/-- "The actual counts" of transport calls (R165). -/
def transportCalls : BoardRev → Instr → Nat
  | _, .openDev _ => 0
  | _, .close => 0
  | _, .enable => 0
  | _, .disable => 0
  | _, .setup => 4
  | .d, .select _ => 4
  | .e, .select _ => 5
  | _, .setPulse => 2
  | _, .setVco => 2
  | _, .setAtten _ => 4
  | _, .readTemp _ => 1
  | _, .enableDebug _ => 0

/-- The bytes of the I2C register space a command writes (R43). -/
def storedLocs : Instr → List Loc
  | .openDev _ => []
  | .close => []
  | .enable => []
  | .disable => []
  | .setup => [Loc.out0, Loc.cfg0, Loc.out1, Loc.cfg1]
  | .select _ => [Loc.out0, Loc.out1]
  | .setPulse => [Loc.out1]
  | .setVco => [Loc.out1]
  | .setAtten _ => [Loc.out0]
  | .readTemp _ => []
  | .enableDebug _ => []

/-- The call a command waits in when the environment is silent from its start, `none` for the commands that ask nothing
and for an OPEN that fails at once. -/
def firstCall (s : State) : Instr → Option Call
  | .openDev revch => (normalise revch).map fun _ => .bootstrap s.gpioPin
  | .close => none
  | .enable => some (.gpioWrite Config.literalHigh)
  | .disable => some (.gpioWrite Config.literalLow)
  | .setup => some (.write Config.expander0 Config.regOut 0x00#8)
  | .select _ => some (.read Config.expander0 Config.regOut .one)
  | .setPulse => some (.read Config.expander1 Config.regOut .one)
  | .setVco => some (.read Config.expander1 Config.regOut .one)
  | .setAtten _ => some (.read Config.expander0 Config.regOut .one)
  | .readTemp _ => some (.read Config.sensor Config.regTemp .two)
  | .enableDebug _ => none

/-- The messages of a transport call that fails: a read has received nothing (R102, R103, R77). -/
def Call.messages : Call → List Message
  | .write dev off val => writeMessages dev off val
  | .read dev off len => readMessages dev off len []
  | .gpioWrite _ => []
  | .bootstrap _ => []
  | .busAcquire _ => []
  | .gpioAcquire _ => []

/-- What a transport call addresses, and in which direction. -/
inductive Target
  | reads (dev : DevAddr) (off : Byte)
  | writes (dev : DevAddr) (off : Byte)
deriving DecidableEq, Repr

/-- The target of a call, `none` where it is no transport call (R150, R152). -/
def Call.target : Call → Option Target
  | .write dev off _ => some (.writes dev off)
  | .read dev off _ => some (.reads dev off)
  | .gpioWrite _ => none
  | .bootstrap _ => none
  | .busAcquire _ => none
  | .gpioAcquire _ => none

/-- The transport calls of a command in order: the step lists of R166, R170, R181, R196, R211, SELECT's step 2 on revision E
alone. -/
def transportPlan : BoardRev → Instr → List Target
  | _, .openDev _ => []
  | _, .close => []
  | _, .enable => []
  | _, .disable => []
  | _, .setup => [.writes 0x38#7 0x01#8, .writes 0x38#7 0x03#8, .writes 0x3F#7 0x01#8, .writes 0x3F#7 0x03#8]
  | .d, .select _ => [.reads 0x38#7 0x01#8, .reads 0x3F#7 0x01#8, .writes 0x38#7 0x01#8, .writes 0x3F#7 0x01#8]
  | .e, .select _ =>
    [.reads 0x38#7 0x01#8, .reads 0x3F#7 0x01#8, .writes 0x3F#7 0x01#8, .writes 0x38#7 0x01#8, .writes 0x3F#7 0x01#8]
  | _, .setPulse => [.reads 0x3F#7 0x01#8, .writes 0x3F#7 0x01#8]
  | _, .setVco => [.reads 0x3F#7 0x01#8, .writes 0x3F#7 0x01#8]
  | _, .setAtten _ => [.reads 0x38#7 0x01#8, .writes 0x38#7 0x01#8, .writes 0x38#7 0x01#8, .writes 0x38#7 0x01#8]
  | _, .readTemp _ => [.reads 0x18#7 0x05#8]
  | _, .enableDebug _ => []

/-- The turns `turns` when other masters have made the writes `ws` just before them. -/
def precededBy (ws : List (Loc × Byte)) : List EnvTurn → List EnvTurn
  | [] => [.silent ws]
  | .answer a :: rest => .answer { a with others := ws ++ a.others } :: rest
  | .silent vs :: rest => .silent (ws ++ vs) :: rest

/-- What a state holds apart from the debug trace and its switch (R156). -/
def State.withoutTrace (s : State) : State := { s with debug := false, trace := [] }

/-- The state a meaning answers with, or the state it was given when it stops. -/
def nextOr (s : State) (o : Host.Outcome State Fault Refusal) : State :=
  match o with
  | .next t => t
  | .fault _ => s
  | .refused _ => s

/-! ### The invariant -/

/-- `LIFECYCLE = Opened` if and only if both resources are owned; in Unopened and Closed neither is (R32, R144). -/
abbrev State.resourcesMatch (s : State) : Prop :=
  (s.lifecycle = .opened ∧ s.busOpen = true ∧ s.gpioOpen = true) ∨
    (s.lifecycle ≠ .opened ∧ s.busOpen = false ∧ s.gpioOpen = false)

/-- A command may be waiting at this `STEP` (R27, R130, R181): CLOSE and ENABLE_DEBUG never wait, SELECT has no step 2 on
revision D. -/
def mayWaitAt (rev : BoardRev) (step : Nat) : Instr → Prop
  | .openDev revch => normalise revch ≠ none ∧ step < 3
  | .close => False
  | .enable => step < 1
  | .disable => step < 1
  | .setup => step < 4
  | .select _ => step < 5 ∧ ¬(rev = .d ∧ step = 2)
  | .setPulse => step < 2
  | .setVco => step < 2
  | .setAtten _ => step < 4
  | .readTemp _ => step < 1
  | .enableDebug _ => False

/-- The resources held while a command executes: OPEN acquires the bus at step 1 and unwinds on failure (R130); every
other command runs with both (R154). -/
def ownsWhile (s : State) : Instr → Prop
  | .openDev _ => s.busOpen = decide (s.step.toNat = 2) ∧ s.gpioOpen = false
  | _ => s.busOpen = true ∧ s.gpioOpen = true

/-- `ERRCODE` holds a code from 1 to 2^31 - 1 for BusOpenFailed and TransportError, and 0 otherwise (R34). -/
def State.errorsMatch (s : State) : Prop :=
  if s.errKind = .busOpenFailed ∨ s.errKind = .transportError then
    1 ≤ s.errCode.toNat ∧ s.errCode.toNat ≤ 2147483647
  else s.errCode = 0#32

/-- What holds of the machine between steps, whatever it does. -/
structure State.Consistent (s : State) : Prop where
  /-- The I2C register space keeps its canonical form. -/
  memory : s.dev.mem.wf
  /-- R34. -/
  errors : s.errorsMatch
  /-- With `BUSY = 0` the step counter is 0 and nothing is in flight (R272). -/
  idle : s.current = none → s.step = 0#3 ∧ s.inFlight = none
  /-- With `BUSY = 0` the lifecycle says which resources are owned (R32, R144). -/
  resources : s.current = none → s.resourcesMatch
  /-- With `BUSY = 1` a permitted command waits in a call at one of its steps, no error recorded. -/
  waiting : ∀ i, s.current = some i →
    s.lifecycle = gate i ∧ s.inFlight ≠ none ∧ s.errKind = .noError ∧ mayWaitAt s.rev s.step.toNat i ∧ ownsWhile s i

end Sys2Proof.Machine
end

