-- ==== Sys2Proof/Certificates/Slice0/Obligations.lean ====
section
/-! DEFINITION. The statements for the provers. Each docstring names the rule of spec/ it formalises. -/

open Sys2Proof Sys2Proof.Machine

/-! ### Command words -/

/-- No bit of a well-formed command's word is dropped: decoding its word gives it back (R91 to R96). -/
def Obligations.DecodeUndoesEncode : Prop :=
  ∀ i : Instr, i.wf = true → decode (encode i) = .ok i

/-- Every command the decoder reads is well formed, and the word is the one word that stands for it (R96, R98). -/
def Obligations.EncodeUndoesDecode : Prop :=
  ∀ (w : Word) (i : Instr), decode w = .ok i → i.wf = true ∧ encode i = w

/-- "a word `w` selects a row if and only if `(w & mask) = match`", "No two rows overlap" (R96): a word decodes to a command
of the one row that selects it, and to none where no row does (R97). -/
def Obligations.DecodeFollowsOpcodeTable : Prop :=
  (∀ (w : Word) (i : Instr), decode w = .ok i →
    ∃ row ∈ opcodeTable, row.selects w ∧ row.mnemonic = i.mnemonic ∧
      ∀ other ∈ opcodeTable, other.selects w → other = row) ∧
  (∀ (w : Word) (e : Reject), decode w = .error e → ∀ row ∈ opcodeTable, ¬row.selects w)

/-- Words written out from the encodings of R91 to R96, one or more of each format. -/
def Obligations.WrittenOutWordsDecode : Prop :=
  decode 0x01000064#32 = .ok (.openDev 0x64#8) ∧
  decode 0x02000000#32 = .ok .close ∧
  decode 0x06000002#32 = .ok (.select .fiber1) ∧
  decode 0x07000001#32 = .ok .setPulse ∧
  decode 0x07000000#32 = .ok .setVco ∧
  decode 0x0800FFFF#32 = .ok (.setAtten (-1)) ∧
  decode 0x09000001#32 = .ok (.readTemp true) ∧
  decode 0x0A000000#32 = .ok (.enableDebug false)

/-! ### Steps of the machine -/

/-- A step runs the decoded command: with `BUSY = 0`, a host write of a command's word to `CMD` is that command's
execution, the action taken from the host's list (R37, R272). -/
def Obligations.WrittenCommandIsExecuted : Prop :=
  ∀ (s : State) (w : Word) (i : Instr) (rest : List HostAction),
    s.current = none → decode w = .ok i →
    (s.host = .write .cmd w :: rest ∨ s.host = .hastyWrite .cmd w :: rest) →
    step s = exec i { s with host := rest }

/-- "A word that matches no row of rule R96 is an illegal command ... Executing it changes nothing but
`ERRKIND <- IllegalCommand`" (R97). `ERRCODE` and `STEP` are cleared as at every start of a command (R37), and the sticky mark
`faultSeen` of R273 is the model's own (log 9). -/
def Obligations.IllegalWordEndsWithIllegalCommand : Prop :=
  ∀ (s : State) (w : Word) (rest : List HostAction),
    s.current = none → (∀ row ∈ opcodeTable, ¬row.selects w) →
    (s.host = .write .cmd w :: rest ∨ s.host = .hastyWrite .cmd w :: rest) →
    step s = .next { s with
      errKind := .illegalCommand, errCode := 0#32, step := 0#3, faultSeen := true, host := rest }

/-- With `BUSY = 1` the sequencer goes on with its command when the environment has a turn to take; the host's next action
waits, unless it is a reset or breaks the host's duty (R21, R155; the order of turns is the model's, log 5). -/
def Obligations.WaitingCommandGoesOn : Prop :=
  ∀ (s : State) (i : Instr) (turn : EnvTurn) (turns : List EnvTurn),
    s.current = some i → s.env = turn :: turns →
    (s.host = [] ∨ ∃ r w rest, s.host = .write r w :: rest) →
    step s = exec i s

/-- A call the platform never answers leaves the machine without a step (R262, U15); the name of the stop is the model's
(log 7). -/
def Obligations.UnansweredCallIsStuck : Prop :=
  ∀ (s : State) (i : Instr),
    s.current = some i → s.env = [] →
    (s.host = [] ∨ ∃ r w rest, s.host = .write r w :: rest) →
    step s = .fault .unanswered

/-- A host write of `CMD`, `BUSIDX` or `GPIOPIN` while `BUSY = 1` is refused (R38). -/
def Obligations.WriteWhileBusyIsRefused : Prop :=
  ∀ (s : State) (r : HostReg) (w : Word) (rest : List HostAction),
    s.current ≠ none → (r = .cmd ∨ r = .busIdx ∨ r = .gpioPin) → s.host = .hastyWrite r w :: rest →
    step s = .refused .hostWriteWhileBusy

/-- "after reset the sequencer is idle and executes nothing until the host writes `CMD`" (R254): an idle machine without a
host action stays as it is. -/
def Obligations.IdleMachineStaysIdle : Prop :=
  ∀ s : State, s.current = none → s.host = [] → step s = .next s

/-- With `BUSY = 0` a host write of `BUSIDX` or `GPIOPIN`, waiting or hasty, sets that register and nothing else (R36). A write of
a read-only register changes nothing (R30), a hasty one not even with `BUSY = 1`: both are log 17. -/
def Obligations.HostWritesItsArgumentRegisters : Prop :=
  ∀ (s : State) (r : HostReg) (w : Word) (rest : List HostAction),
    (s.current = none → (s.host = .write r w :: rest ∨ s.host = .hastyWrite r w :: rest) →
      (r = .busIdx → step s = .next { s with busIdx := w, host := rest }) ∧
      (r = .gpioPin → step s = .next { s with gpioPin := w, host := rest }) ∧
      ((r = .status ∨ r = .errCode ∨ r = .temp) → step s = .next { s with host := rest })) ∧
    (s.current ≠ none → s.host = .hastyWrite r w :: rest → (r = .status ∨ r = .errCode ∨ r = .temp) →
      step s = .next { s with host := rest })

/-- The reset event gives every piece of CALCTL's state the value the table of R251 gives it, so that `AfterReset` holds (R273),
and leaves nothing in flight; the devices are not changed when no write transaction is cut short (R252). That reset is
taken from every state, also while busy, is the model's choice (R252 and R253 leave it to the model; log 16). -/
def Obligations.ResetEventRestoresCalctl : Prop :=
  ∀ (s : State) (took : Bool) (rest : List HostAction), s.host = .reset took :: rest →
    ∃ t, step s = .next t ∧ t.current = none ∧ t.lifecycle = .unopened ∧ t.rev = .d ∧ t.debug = false ∧
      t.busOpen = false ∧ t.gpioOpen = false ∧ t.errKind = .noError ∧ t.errCode = 0#32 ∧ t.busIdx = 0#32 ∧
      t.gpioPin = 0#32 ∧ t.step = 0#3 ∧ t.en = .unknown ∧ t.afterReset = true ∧ t.inFlight = none ∧
      ((∀ dev off val, s.inFlight ≠ some (.write dev off val)) → t.dev = s.dev)

/-- Reset while a write transaction is in flight: "a transaction cut short may or may not have taken effect" (R253; log 16).
That a cut short write to `OUT0` which took effect also latches, as any write that reaches it, is the model's (log 11; R75
speaks of a successful write). -/
def Obligations.ResetMayCutAWriteShort : Prop :=
  ∀ (s : State) (dev : DevAddr) (off val : Byte) (rest : List HostAction),
    s.inFlight = some (.write dev off val) →
    (s.host = .reset false :: rest → ∃ t, step s = .next t ∧ t.dev = s.dev) ∧
    (s.host = .reset true :: rest →
      ∃ t, step s = .next t ∧ t.dev = s.dev.write { dev := dev, off := off, idx := 0 } val)

/-- The values of R251 for the machine right after reset, so that `AfterReset` and `NothingInFlight` hold (R273); nothing is claimed
of the registers without a value. -/
def Obligations.ResetStateHasTheTabledValues : Prop :=
  State.reset.afterReset = true ∧
  State.reset.status = 0#32 ∧ State.reset.current = none ∧ State.reset.lifecycle = .unopened ∧
  State.reset.errCode = 0#32 ∧ State.reset.busIdx = 0#32 ∧ State.reset.gpioPin = 0#32 ∧ State.reset.step = 0#3 ∧
  State.reset.en = .unknown ∧ State.reset.inFlight = none

/-- The host sees the fields of `STATUS` where R31 packs them, with the numbers of R31 and R33, reserved bits 0; it sees 0 in
`CMD`, and the other four registers as they stand (R30). -/
def Obligations.StatusPacksItsFields : Prop :=
  ∀ s : State,
    (hostRead s .status).extractLsb' 0 1 = BitVec.ofBool s.busy ∧
    (hostRead s .status).extractLsb' 1 2 = s.lifecycle.code ∧
    (hostRead s .status).extractLsb' 3 1 = s.rev.code ∧
    (hostRead s .status).extractLsb' 4 1 = BitVec.ofBool s.debug ∧
    (hostRead s .status).extractLsb' 5 1 = BitVec.ofBool s.busOpen ∧
    (hostRead s .status).extractLsb' 6 1 = BitVec.ofBool s.gpioOpen ∧
    (hostRead s .status).extractLsb' 7 1 = 0#1 ∧
    (hostRead s .status).extractLsb' 8 4 = s.errKind.code ∧
    (hostRead s .status).extractLsb' 12 20 = 0#20 ∧
    (Lifecycle.unopened.code = 0#2 ∧ Lifecycle.opened.code = 1#2 ∧ Lifecycle.closed.code = 2#2) ∧
    (BoardRev.d.code = 0#1 ∧ BoardRev.e.code = 1#1) ∧
    (ErrKind.noError.code = 0#4 ∧ ErrKind.invalidRevision.code = 1#4 ∧ ErrKind.busOpenFailed.code = 2#4 ∧
      ErrKind.gpioOpenFailed.code = 3#4 ∧ ErrKind.transportError.code = 4#4 ∧ ErrKind.gpioWriteFailed.code = 5#4 ∧
      ErrKind.illegalCommand.code = 6#4 ∧ ErrKind.badState.code = 7#4) ∧
    hostRead s .cmd = 0#32 ∧ hostRead s .errCode = s.errCode ∧ hostRead s .temp = s.temp ∧
    hostRead s .busIdx = s.busIdx ∧ hostRead s .gpioPin = s.gpioPin

/-! ### Lifecycle and errors -/

/-- "any other combination raises BadState and has no other effect (no transaction, no `GpioWrite`, no state change)" (R231):
OPEN is permitted in Unopened alone, every other command in Opened alone, and a permitted command never answers
BadState. `ERRCODE` and `STEP` are cleared as at every start of a command (R37), and the sticky mark `faultSeen` of R273 is the
model's own (log 9). -/
def Obligations.ForbiddenCommandRaisesBadState : Prop :=
  ∀ (i : Instr) (s : State), s.current = none →
    ((∃ revch, i = .openDev revch) ∧ s.lifecycle ≠ .unopened ∨
      (∀ revch, i ≠ .openDev revch) ∧ s.lifecycle ≠ .opened →
      exec i s = .next { s with errKind := .badState, errCode := 0#32, step := 0#3, faultSeen := true }) ∧
    ((∃ revch, i = .openDev revch) ∧ s.lifecycle = .unopened ∨
      (∀ revch, i ≠ .openDev revch) ∧ s.lifecycle = .opened →
      ∃ t, exec i s = .next t ∧ t.errKind ≠ .badState ∧ t.faultSeen = s.faultSeen)

/-- "No operation is fatal" (R229): every command answers with a next state, in every state. -/
def Obligations.NoCommandIsFatal : Prop :=
  ∀ (i : Instr) (s : State), ∃ t, exec i s = .next t

/-- "The only transitions are Unopened to Opened (a successful OPEN) and Opened to Closed (CLOSE)"; "Closed is terminal:
only reset leaves it" (R32): of a command, and of a step, which takes the one transition only where it executes an OPEN that
ends without error and the other only where it executes a CLOSE. -/
def Obligations.LifecycleOnlyMovesForward : Prop :=
  (∀ (i : Instr) (s t : State), exec i s = .next t →
    t.lifecycle = s.lifecycle ∨
    ((∃ revch, i = .openDev revch) ∧ s.lifecycle = .unopened ∧ t.lifecycle = .opened ∧
      t.current = none ∧ t.errKind = .noError) ∨
    (i = .close ∧ s.lifecycle = .opened ∧ t.lifecycle = .closed)) ∧
  (∀ s t : State, (∀ took rest, s.host ≠ .reset took :: rest) → step s = .next t →
    t.lifecycle = s.lifecycle ∨
    ((∃ revch, s.runs (.openDev revch)) ∧ s.lifecycle = .unopened ∧ t.lifecycle = .opened ∧
      t.current = none ∧ t.errKind = .noError) ∨
    (s.runs .close ∧ s.lifecycle = .opened ∧ t.lifecycle = .closed))

/-- The sticky mark of `NoFaultRecorded` (R273): without a reset it stays, and it comes only with a command that ended in
IllegalCommand or BadState. -/
def Obligations.FaultMarkIsSticky : Prop :=
  ∀ s t : State, (∀ took rest, s.host ≠ .reset took :: rest) → step s = .next t →
    (s.faultSeen = true → t.faultSeen = true) ∧
    (t.faultSeen = true → s.faultSeen = true ∨
      t.current = none ∧ (t.errKind = .illegalCommand ∨ t.errKind = .badState))

/-! ### OPEN and CLOSE -/

/-- InvalidRevision (R131): no bootstrap, no acquisition, nothing changed but the error fields. -/
def Obligations.OpenRejectsUnknownRevision : Prop :=
  ∀ (revch : Byte) (s : State), s.readyFor (.openDev revch) →
    revch ≠ 0x00#8 → revch ≠ 0x44#8 → revch ≠ 0x45#8 → revch ≠ 0x64#8 → revch ≠ 0x65#8 →
    exec (.openDev revch) s = .next { s with errKind := .invalidRevision, errCode := 0#32, step := 0#3 }

/-- BusOpenFailed (R134, R222): the bootstrap has happened and its outcome is not examined; the GPIO acquisition is never
attempted (R132). -/
def Obligations.OpenReportsBusFailure : Prop :=
  ∀ (revch : Byte) (s : State) (a0 a1 : Answer) (rest : List EnvTurn), s.readyFor (.openDev revch) →
    revch ∈ [0x00#8, 0x44#8, 0x45#8, 0x64#8, 0x65#8] →
    s.env = .answer a0 :: .answer a1 :: rest → a1.ok = false →
    exec (.openDev revch) s = .next (s.ended .busOpenFailed a1.code.toWord rest
      ((s.dev.disturb a0.others).disturb a1.others)
      [.bootstrap s.gpioPin, .busAcquire s.busIdx (some a1.code)] [])

/-- GpioOpenFailed (R135, R223): the bus acquired is released again, no code is recorded. -/
def Obligations.OpenReportsGpioFailure : Prop :=
  ∀ (revch : Byte) (s : State) (a0 a1 a2 : Answer) (rest : List EnvTurn), s.readyFor (.openDev revch) →
    revch ∈ [0x00#8, 0x44#8, 0x45#8, 0x64#8, 0x65#8] →
    s.env = .answer a0 :: .answer a1 :: .answer a2 :: rest → a1.ok = true → a2.ok = false →
    exec (.openDev revch) s = .next { s.ended .gpioOpenFailed 0#32 rest
      (((s.dev.disturb a0.others).disturb a1.others).disturb a2.others)
      [.bootstrap s.gpioPin, .busAcquire s.busIdx none, .gpioAcquire s.gpioPin false, .busRelease s.busIdx] []
      with busOpen := false }

/-- OPEN succeeds (R92, R130, R136): revision D for `'D'` and `'d'`, revision E for `'E'`, `'e'` and no revision given; the
handle owns both resources and records the bus and the line; the enable line is not touched. -/
def Obligations.OpenRecordsTheHandle : Prop :=
  ∀ (revch : Byte) (rev : BoardRev) (s : State) (a0 a1 a2 : Answer) (rest : List EnvTurn),
    s.readyFor (.openDev revch) →
    (rev = .d ∧ revch ∈ [0x44#8, 0x64#8] ∨ rev = .e ∧ revch ∈ [0x00#8, 0x45#8, 0x65#8]) →
    s.env = .answer a0 :: .answer a1 :: .answer a2 :: rest → a1.ok = true → a2.ok = true →
    exec (.openDev revch) s = .next { s.ended .noError 0#32 rest
      (((s.dev.disturb a0.others).disturb a1.others).disturb a2.others)
      [.bootstrap s.gpioPin, .busAcquire s.busIdx none, .gpioAcquire s.gpioPin true] []
      with
        lifecycle := .opened, rev := rev, debug := false, busOpen := true, gpioOpen := true,
        handleBus := s.busIdx, handlePin := s.gpioPin }

/-- "On any failure: nothing remains changed (`BUS_OPEN = GPIO_OPEN = 0`, `LIFECYCLE = Unopened`, `REV` and `DEBUG` unchanged)"
(R130), wherever OPEN failed and however long it waited. -/
def Obligations.OpenIsAllOrNothing : Prop :=
  ∀ (revch : Byte) (s t : State), s.Consistent → s.lifecycle = .unopened →
    (s.current = none ∨ s.current = some (.openDev revch)) →
    exec (.openDev revch) s = .next t → t.current = none → t.errKind ≠ .noError →
    t.busOpen = false ∧ t.gpioOpen = false ∧ t.lifecycle = .unopened ∧ t.rev = s.rev ∧ t.debug = s.debug ∧
      t.handleBus = s.handleBus ∧ t.handlePin = s.handlePin ∧ t.en = s.en ∧ t.temp = s.temp

/-- CLOSE releases the GPIO resource, then the bus, then the handle (R138); `REV`, `DEBUG`, `TEMP` stay, and so do the devices but
for what other masters write before either release, whose only turns are the ones without an answer (R71; log 6). It needs
no answer, so it never waits. -/
def Obligations.CloseReleasesEverything : Prop :=
  ∀ s : State, s.readyFor .close →
    let closed (dev : Devices) (turns : List EnvTurn) : State := { s with
      lifecycle := .closed, busOpen := false, gpioOpen := false, en := .unknown,
      errKind := .noError, errCode := 0#32, step := 0#3, dev := dev, env := turns,
      traffic := s.traffic ++ [.gpioRelease s.handlePin, .busRelease s.handleBus] }
    ((∀ ws rest, s.env ≠ .silent ws :: rest) → exec .close s = .next (closed s.dev s.env)) ∧
    (∀ ws rest, s.env = .silent ws :: rest → (∀ vs later, rest ≠ .silent vs :: later) →
      exec .close s = .next (closed (s.dev.disturb ws) rest)) ∧
    (∀ ws vs rest, s.env = .silent ws :: .silent vs :: rest →
      exec .close s = .next (closed ((s.dev.disturb ws).disturb vs) rest))

/-! ### ENABLE, DISABLE, ENABLE_DEBUG -/

/-- ENABLE (R140): one `GpioWrite` of the five bytes; `High` if all five are accepted, else `Unknown` and GpioWriteFailed. -/
def Obligations.EnableDrivesTheLineHigh : Prop :=
  ∀ (s : State) (a : Answer) (rest : List EnvTurn), s.readyFor .enable → s.env = .answer a :: rest →
    let sent : List Traffic := [.gpioWrite s.handlePin [0x68#8, 0x69#8, 0x67#8, 0x68#8, 0x0A#8] (acceptedCount a 5)]
    (acceptedCount a 5 = some 5 →
      exec .enable s = .next { s.ended .noError 0#32 rest (s.dev.disturb a.others) sent [] with en := .high }) ∧
    (acceptedCount a 5 ≠ some 5 →
      exec .enable s = .next { s.ended .gpioWriteFailed 0#32 rest (s.dev.disturb a.others) sent []
        with en := .unknown })

/-- DISABLE (R141): one `GpioWrite` of the FOUR bytes; `Low` if all four are accepted, else `Unknown` and
GpioWriteFailed. -/
def Obligations.DisableDrivesTheLineLow : Prop :=
  ∀ (s : State) (a : Answer) (rest : List EnvTurn), s.readyFor .disable → s.env = .answer a :: rest →
    let sent : List Traffic := [.gpioWrite s.handlePin [0x6C#8, 0x6F#8, 0x77#8, 0x0A#8] (acceptedCount a 4)]
    (acceptedCount a 4 = some 4 →
      exec .disable s = .next { s.ended .noError 0#32 rest (s.dev.disturb a.others) sent [] with en := .low }) ∧
    (acceptedCount a 4 ≠ some 4 →
      exec .disable s = .next { s.ended .gpioWriteFailed 0#32 rest (s.dev.disturb a.others) sent []
        with en := .unknown })

/-- ENABLE_DEBUG (R143): `DEBUG <- DBG`, and nothing else but the error fields. -/
def Obligations.EnableDebugSetsTheFlag : Prop :=
  ∀ (dbg : Bool) (s : State), s.readyFor (.enableDebug dbg) →
    exec (.enableDebug dbg) s = .next { s with
      debug := dbg, errKind := .noError, errCode := 0#32, step := 0#3 }

/-! ### SETUP, SET_PULSE, SET_VCO -/

/-- SETUP (R166): four writes of 0x00, strictly in this order, other masters acting before each (R71); the traced messages
as R157 has them. -/
def Obligations.SetupZeroesBothExpanders : Prop :=
  ∀ (s : State) (a0 a1 a2 a3 : Answer) (rest : List EnvTurn), s.readyFor .setup →
    s.env = .answer a0 :: .answer a1 :: .answer a2 :: .answer a3 :: rest →
    a0.ok = true → a1.ok = true → a2.ok = true → a3.ok = true →
    let d0 := (s.dev.disturb a0.others).write { dev := 0x38#7, off := 0x01#8, idx := 0 } 0x00#8
    let d1 := (d0.disturb a1.others).write { dev := 0x38#7, off := 0x03#8, idx := 0 } 0x00#8
    let d2 := (d1.disturb a2.others).write { dev := 0x3F#7, off := 0x01#8, idx := 0 } 0x00#8
    let d3 := (d2.disturb a3.others).write { dev := 0x3F#7, off := 0x03#8, idx := 0 } 0x00#8
    exec .setup s = .next (s.ended .noError 0#32 rest d3
      [s.sent (writeMessages 0x38#7 0x01#8 0x00#8), s.sent (writeMessages 0x38#7 0x03#8 0x00#8),
       s.sent (writeMessages 0x3F#7 0x01#8 0x00#8), s.sent (writeMessages 0x3F#7 0x03#8 0x00#8)]
      [{ address := 0x38#7, flags := 0#8, length := 2, bytes := [0x01#8, 0x00#8] },
       { address := 0x38#7, flags := 0#8, length := 2, bytes := [0x03#8, 0x00#8] },
       { address := 0x3F#7, flags := 0#8, length := 2, bytes := [0x01#8, 0x00#8] },
       { address := 0x3F#7, flags := 0#8, length := 2, bytes := [0x03#8, 0x00#8] }])

/-- "After SETUP all 16 pins are outputs driven low" (R74), and the attenuator's latched value is not changed (R167 c),
when no other master writes to an expander during the command, which `ExclusiveBus` implies (R72, `State.exclusiveBus`). -/
def Obligations.SetupDrivesEveryPinLow : Prop :=
  ∀ (s : State) (a0 a1 a2 a3 : Answer) (rest : List EnvTurn), s.dev.mem.wf → s.readyFor .setup →
    s.env = .answer a0 :: .answer a1 :: .answer a2 :: .answer a3 :: rest →
    (∀ a ∈ [a0, a1, a2, a3], a.ok = true ∧ (EnvTurn.answer a).sparesExpanders = true) →
    ∃ t, exec .setup s = .next t ∧ t.errKind = .noError ∧ t.dev.att = s.dev.att ∧
      t.dev.everLatched = s.dev.everLatched ∧
      ∀ i, i < 8 → t.dev.pinLevel 0x38#7 i = some false ∧ t.dev.pinLevel 0x3F#7 i = some false

/-- SET_PULSE (R171): one read of `OUT1`, one write of `(old | 0x40) & 0xF7`. That `V1` still holds the byte after the command's
end is the model's choice (log 24; R25 gives it no value there). -/
def Obligations.SetPulseRewritesTheModeBits : Prop :=
  ∀ (s : State) (a0 a1 : Answer) (rest : List EnvTurn), s.readyFor .setPulse →
    s.env = .answer a0 :: .answer a1 :: rest → a0.ok = true → a1.ok = true →
    let d0 := s.dev.disturb a0.others
    let old := d0.read { dev := 0x3F#7, off := 0x01#8, idx := 0 }
    let new := (old ||| 0x40#8) &&& 0xF7#8
    exec .setPulse s = .next { s.ended .noError 0#32 rest
      ((d0.disturb a1.others).write { dev := 0x3F#7, off := 0x01#8, idx := 0 } new)
      [s.sent (readMessages 0x3F#7 0x01#8 .one [old]), s.sent (writeMessages 0x3F#7 0x01#8 new)]
      [{ address := 0x3F#7, flags := 0#8, length := 1, bytes := [0x01#8] },
       { address := 0x3F#7, flags := 1#8, length := 1, bytes := [old] },
       { address := 0x3F#7, flags := 0#8, length := 2, bytes := [0x01#8, new] }]
      with v1 := new }

/-- SET_VCO (R172): one read of `OUT1`, one write of `(old & 0xBF) | 0x08`. That `V1` still holds the byte after the command's
end is the model's choice (log 24; R25 gives it no value there). -/
def Obligations.SetVcoRewritesTheModeBits : Prop :=
  ∀ (s : State) (a0 a1 : Answer) (rest : List EnvTurn), s.readyFor .setVco →
    s.env = .answer a0 :: .answer a1 :: rest → a0.ok = true → a1.ok = true →
    let d0 := s.dev.disturb a0.others
    let old := d0.read { dev := 0x3F#7, off := 0x01#8, idx := 0 }
    let new := (old &&& 0xBF#8) ||| 0x08#8
    exec .setVco s = .next { s.ended .noError 0#32 rest
      ((d0.disturb a1.others).write { dev := 0x3F#7, off := 0x01#8, idx := 0 } new)
      [s.sent (readMessages 0x3F#7 0x01#8 .one [old]), s.sent (writeMessages 0x3F#7 0x01#8 new)]
      [{ address := 0x3F#7, flags := 0#8, length := 1, bytes := [0x01#8] },
       { address := 0x3F#7, flags := 1#8, length := 1, bytes := [old] },
       { address := 0x3F#7, flags := 0#8, length := 2, bytes := [0x01#8, new] }]
      with v1 := new }

/-- "The result always has exactly one of bits 6 and 3 set" and "Bits 7, 5, 4, 2, 1, 0 of the value read are written back
unchanged" (R170); the edit applied twice is the edit applied once (R173 a). -/
def Obligations.ModesAreMutuallyExclusive : Prop :=
  ∀ (pulseOn : Bool) (old : Byte),
    (modeEdit pulseOn old).getLsbD 6 = pulseOn ∧ (modeEdit pulseOn old).getLsbD 3 = !pulseOn ∧
    (∀ k, k < 8 → k ≠ 6 → k ≠ 3 → (modeEdit pulseOn old).getLsbD k = old.getLsbD k) ∧
    modeEdit pulseOn (modeEdit pulseOn old) = modeEdit pulseOn old

/-! ### SELECT -/

/-- SELECT on revision D (R181, R182, R186): both reads, then `OUT0`, then `OUT1`; step 2 is skipped. That `V0` and `V1` still hold
the bytes after the command's end is the model's choice (log 24; R25 gives them no value there). -/
def Obligations.SelectOnRevisionD : Prop :=
  ∀ (ch : Channel) (s : State) (a0 a1 a3 a4 : Answer) (rest : List EnvTurn), s.readyFor (.select ch) → s.rev = .d →
    s.env = .answer a0 :: .answer a1 :: .answer a3 :: .answer a4 :: rest →
    a0.ok = true → a1.ok = true → a3.ok = true → a4.ok = true →
    let d0 := s.dev.disturb a0.others
    let a := d0.read { dev := 0x38#7, off := 0x01#8, idx := 0 }
    let d1 := d0.disturb a1.others
    let b := d1.read { dev := 0x3F#7, off := 0x01#8, idx := 0 }
    let a' := editV0 .d ch a
    let b' := editV1 .d ch b
    let d3 := (d1.disturb a3.others).write { dev := 0x38#7, off := 0x01#8, idx := 0 } a'
    let d4 := (d3.disturb a4.others).write { dev := 0x3F#7, off := 0x01#8, idx := 0 } b'
    exec (.select ch) s = .next { s.ended .noError 0#32 rest d4
      [s.sent (readMessages 0x38#7 0x01#8 .one [a]), s.sent (readMessages 0x3F#7 0x01#8 .one [b]),
       s.sent (writeMessages 0x38#7 0x01#8 a'), s.sent (writeMessages 0x3F#7 0x01#8 b')]
      ((readMessages 0x38#7 0x01#8 .one [a] ++ readMessages 0x3F#7 0x01#8 .one [b] ++
        writeMessages 0x38#7 0x01#8 a' ++ writeMessages 0x3F#7 0x01#8 b').map Message.record)
      with v0 := a', v1 := b' }

/-- SELECT on revision E (R181, R183, R186): both reads, the forcing write of `OUT1 | 0x0C` to Expander-1's output register,
then `OUT0`, then `OUT1`. That `V0` and `V1` still hold the bytes after the command's end is the model's choice (log 24; R25
gives them no value there). -/
def Obligations.SelectOnRevisionE : Prop :=
  ∀ (ch : Channel) (s : State) (a0 a1 a2 a3 a4 : Answer) (rest : List EnvTurn),
    s.readyFor (.select ch) → s.rev = .e →
    s.env = .answer a0 :: .answer a1 :: .answer a2 :: .answer a3 :: .answer a4 :: rest →
    a0.ok = true → a1.ok = true → a2.ok = true → a3.ok = true → a4.ok = true →
    let d0 := s.dev.disturb a0.others
    let a := d0.read { dev := 0x38#7, off := 0x01#8, idx := 0 }
    let d1 := d0.disturb a1.others
    let b := d1.read { dev := 0x3F#7, off := 0x01#8, idx := 0 }
    let m := b ||| 0x0C#8
    let a' := editV0 .e ch a
    let b' := editV1 .e ch m
    let d2 := (d1.disturb a2.others).write { dev := 0x3F#7, off := 0x01#8, idx := 0 } m
    let d3 := (d2.disturb a3.others).write { dev := 0x38#7, off := 0x01#8, idx := 0 } a'
    let d4 := (d3.disturb a4.others).write { dev := 0x3F#7, off := 0x01#8, idx := 0 } b'
    exec (.select ch) s = .next { s.ended .noError 0#32 rest d4
      [s.sent (readMessages 0x38#7 0x01#8 .one [a]), s.sent (readMessages 0x3F#7 0x01#8 .one [b]),
       s.sent (writeMessages 0x3F#7 0x01#8 m), s.sent (writeMessages 0x38#7 0x01#8 a'),
       s.sent (writeMessages 0x3F#7 0x01#8 b')]
      ((readMessages 0x38#7 0x01#8 .one [a] ++ readMessages 0x3F#7 0x01#8 .one [b] ++
        writeMessages 0x3F#7 0x01#8 m ++ writeMessages 0x38#7 0x01#8 a' ++
        writeMessages 0x3F#7 0x01#8 b').map Message.record)
      with v0 := a', v1 := b' }

/-- The closed form of SELECT, the table of R185, row by row; on revision E `b` is forced first. The table is the
spec's own inference. -/
def Obligations.SelectClosedForm : Prop :=
  ∀ a b : Byte,
    forceE b = b ||| 0x0C#8 ∧
    (editV0 .d .coax a = a &&& 0xFD#8 ∧ editV1 .d .coax b = b &&& 0x7F#8) ∧
    (editV0 .d .fiber0 a = a &&& 0xFD#8 ∧ editV1 .d .fiber0 b = b ||| 0x80#8) ∧
    (editV0 .d .fiber1 a = a ||| 0x02#8 ∧ editV1 .d .fiber1 b = b ||| 0x20#8) ∧
    (editV0 .d .none a = a &&& 0xFD#8 ∧ editV1 .d .none b = b &&& 0x5F#8) ∧
    (editV0 .e .coax a = a &&& 0xFD#8 ∧ editV1 .e .coax (forceE b) = (b ||| 0x0C#8) &&& 0x7F#8) ∧
    (editV0 .e .fiber0 a = a ||| 0x02#8 ∧ editV1 .e .fiber0 (forceE b) = (b &&& 0x23#8) ||| 0x08#8) ∧
    (editV0 .e .fiber1 a = a ||| 0x02#8 ∧ editV1 .e .fiber1 (forceE b) = (b &&& 0x23#8) ||| 0x08#8) ∧
    (editV0 .e .none a = a &&& 0xFD#8 ∧ editV1 .e .none (forceE b) = (b ||| 0x0C#8) &&& 0x5F#8)

/-- Which bits SELECT keeps (R265): of `OUT0` all but bit 1; of `OUT1` on revision D all but bits 7 and 5, on revision E
bits 1 and 0. A revision-E SELECT of a fibre channel leaves the mode bits as VCO (R264). Every row is idempotent (R190). The
spec marks these as its own inferences. -/
def Obligations.SelectKeepsTheOtherBits : Prop :=
  ∀ (rev : BoardRev) (ch : Channel) (a b : Byte),
    (∀ k, k ≠ 1 → (editV0 rev ch a).getLsbD k = a.getLsbD k) ∧
    (∀ k, k ≠ 5 → k ≠ 7 → (editV1 .d ch b).getLsbD k = b.getLsbD k) ∧
    (∀ k, k < 2 → (editV1 .e ch (forceE b)).getLsbD k = b.getLsbD k) ∧
    (ch = .fiber0 ∨ ch = .fiber1 →
      (editV1 .e ch (forceE b)).getLsbD 6 = false ∧ (editV1 .e ch (forceE b)).getLsbD 3 = true) ∧
    editV0 rev ch (editV0 rev ch a) = editV0 rev ch a ∧
    editV1 .d ch (editV1 .d ch b) = editV1 .d ch b ∧
    editV1 .e ch (forceE (editV1 .e ch (forceE b))) = editV1 .e ch (forceE b)

/-- What a SELECT leaves that fails at a step, the table of R187, when no other master writes to an expander during the command,
which `ExclusiveBus` implies (R72, `State.exclusiveBus`): `a`, `b` are the bytes read, `a'`, `b'` the bytes of the final
writes. The table is the spec's own inference. -/
def Obligations.FailedSelectLeavesATabledState : Prop :=
  ∀ (ch : Channel) (s : State) (oks : List Answer) (bad : Answer) (rest : List EnvTurn),
    s.dev.mem.wf → s.readyFor (.select ch) → s.env = oks.map .answer ++ .answer bad :: rest →
    (∀ a ∈ oks, a.ok = true ∧ (EnvTurn.answer a).sparesExpanders = true) →
    bad.ok = false → (EnvTurn.answer bad).sparesExpanders = true →
    let a := s.dev.read Loc.out0
    let b := s.dev.read Loc.out1
    let a' := editV0 s.rev ch a
    let b' := editV1 s.rev ch (if s.rev = .e then forceE b else b)
    ∃ t, exec (.select ch) s = .next t ∧
    ((oks.length = 0 ∨ oks.length = 1) → t.dev.read Loc.out0 = a ∧ t.dev.read Loc.out1 = b) ∧
    (s.rev = .e → oks.length = 2 →
      t.dev.read Loc.out0 = a ∧ (t.dev.read Loc.out1 = b ∨ t.dev.read Loc.out1 = forceE b)) ∧
    (s.rev = .e → oks.length = 3 →
      (t.dev.read Loc.out0 = a ∨ t.dev.read Loc.out0 = a') ∧ t.dev.read Loc.out1 = forceE b) ∧
    (s.rev = .e → oks.length = 4 →
      t.dev.read Loc.out0 = a' ∧ (t.dev.read Loc.out1 = forceE b ∨ t.dev.read Loc.out1 = b')) ∧
    (s.rev = .d → oks.length = 2 →
      (t.dev.read Loc.out0 = a ∨ t.dev.read Loc.out0 = a') ∧ t.dev.read Loc.out1 = b) ∧
    (s.rev = .d → oks.length = 3 →
      t.dev.read Loc.out0 = a' ∧ (t.dev.read Loc.out1 = b ∨ t.dev.read Loc.out1 = b'))

/-! ### SET_ATTEN -/

/-- SET_ATTEN (R196, R202): one read and the writes `w`, `w | 0x01`, `w` to Expander-0's output register, with
`w = (a & 0x02) | (R << 2)`, `R = rev6(63 - clamp(level))`. That `V0`, `LVL`, `C` and `R` still hold their values after the command's
end is the model's choice (log 24; R25 gives them no value there). -/
def Obligations.SetAttenFillsLatchesReleases : Prop :=
  ∀ (level : Int) (s : State) (a0 a1 a2 a3 : Answer) (rest : List EnvTurn), s.readyFor (.setAtten level) →
    s.env = .answer a0 :: .answer a1 :: .answer a2 :: .answer a3 :: rest →
    a0.ok = true → a1.ok = true → a2.ok = true → a3.ok = true →
    let d0 := s.dev.disturb a0.others
    let a := d0.read { dev := 0x38#7, off := 0x01#8, idx := 0 }
    let lvl := clampLevel level
    let r := rev6 (63#6 - lvl)
    let w := (a &&& 0x02#8) ||| (r.setWidth 8 <<< 2)
    let d1 := (d0.disturb a1.others).write { dev := 0x38#7, off := 0x01#8, idx := 0 } w
    let d2 := (d1.disturb a2.others).write { dev := 0x38#7, off := 0x01#8, idx := 0 } (w ||| 0x01#8)
    let d3 := (d2.disturb a3.others).write { dev := 0x38#7, off := 0x01#8, idx := 0 } w
    exec (.setAtten level) s = .next { s.ended .noError 0#32 rest d3
      [s.sent (readMessages 0x38#7 0x01#8 .one [a]), s.sent (writeMessages 0x38#7 0x01#8 w),
       s.sent (writeMessages 0x38#7 0x01#8 (w ||| 0x01#8)), s.sent (writeMessages 0x38#7 0x01#8 w)]
      ((readMessages 0x38#7 0x01#8 .one [a] ++ writeMessages 0x38#7 0x01#8 w ++
        writeMessages 0x38#7 0x01#8 (w ||| 0x01#8) ++ writeMessages 0x38#7 0x01#8 w).map Message.record)
      with v0 := w, lvl := lvl, c := 63#6 - lvl, r := r }

/-- The level's code: the clamp is silent and total (R197), `C = 63 - LVL` (R198), and `rev6` sends bit `k` to bit `5 - k`
and undoes itself (R199). That the clamp takes levels beyond 16 bits too is the model's choice (log 20). -/
def Obligations.AttenCodeIsReversedComplement : Prop :=
  (∀ level : Int, ((clampLevel level).toNat : Int) = max 0 (min level 63) ∧
    (complementLevel (clampLevel level)).toNat = 63 - (clampLevel level).toNat) ∧
  (∀ (c : BitVec 6) (k : Nat), k < 6 → (rev6 c).getLsbD k = c.getLsbD (5 - k)) ∧
  (∀ c : BitVec 6, rev6 (rev6 c) = c)

/-- `val = {R[5:0], s, 0}` with `s` bit 1 of the byte read, and `R << 2` never above 0xFC (R200); bit `7 - k` of it is bit `k` of the
complement, which the spec infers from R199; the byte of the latching write differs in load-enable alone (R201). -/
def Obligations.AttenByteIsAConcatenation : Prop :=
  (∀ (a : Byte) (r : BitVec 6),
    mergeAtten a r = r ++ (BitVec.ofBool (a.getLsbD 1) ++ 0#1) ∧
    mergeAtten a r ||| 0x01#8 = r ++ (BitVec.ofBool (a.getLsbD 1) ++ 1#1) ∧
    ((r.setWidth 8 : Byte) <<< 2).toNat ≤ 0xFC) ∧
  (∀ (a : Byte) (c : BitVec 6),
    (∀ k, k < 6 → (mergeAtten a (rev6 c)).getLsbD (7 - k) = c.getLsbD k) ∧
    (mergeAtten a (rev6 c)).getLsbD 1 = a.getLsbD 1 ∧ (mergeAtten a (rev6 c)).getLsbD 0 = false)

/-- When no other master writes to an expander during the command, which `ExclusiveBus` implies (R72, `State.exclusiveBus`), a
SET_ATTEN that succeeds leaves its code latched, and `OUT0` with load-enable low (R75, R201, R204 e). -/
def Obligations.SetAttenLeavesTheCodeLatched : Prop :=
  ∀ (level : Int) (s : State) (a0 a1 a2 a3 : Answer) (rest : List EnvTurn), s.dev.mem.wf →
    s.readyFor (.setAtten level) →
    s.env = .answer a0 :: .answer a1 :: .answer a2 :: .answer a3 :: rest →
    (∀ a ∈ [a0, a1, a2, a3], a.ok = true ∧ (EnvTurn.answer a).sparesExpanders = true) →
    ∃ t, exec (.setAtten level) s = .next t ∧ t.errKind = .noError ∧
      t.dev.att = rev6 (complementLevel (clampLevel level)) ∧ t.dev.everLatched = true ∧
      t.dev.read Loc.out0 =
        mergeAtten (s.dev.read Loc.out0) (rev6 (complementLevel (clampLevel level)))

/-- What a SET_ATTEN leaves that fails at a step, the table of R203, when no other master writes to an expander during the
command, which `ExclusiveBus` implies (R72, `State.exclusiveBus`): `w` is the byte of the fill and release writes. The table
is the spec's own inference; that a failed write which took effect latches is the model's choice (log 11). -/
def Obligations.FailedSetAttenLeavesATabledState : Prop :=
  ∀ (level : Int) (s : State) (oks : List Answer) (bad : Answer) (rest : List EnvTurn),
    s.dev.mem.wf → s.readyFor (.setAtten level) → s.env = oks.map .answer ++ .answer bad :: rest →
    (∀ a ∈ oks, a.ok = true ∧ (EnvTurn.answer a).sparesExpanders = true) →
    bad.ok = false → (EnvTurn.answer bad).sparesExpanders = true →
    let a := s.dev.read Loc.out0
    let r := rev6 (complementLevel (clampLevel level))
    let w := mergeAtten a r
    let latch (u : State) : BitVec 6 × Bool := (u.dev.att, u.dev.everLatched)
    ∃ t, exec (.setAtten level) s = .next t ∧
    (oks.length = 0 → t.dev.read Loc.out0 = a ∧ latch t = latch s) ∧
    (oks.length = 1 → (t.dev.read Loc.out0 = a ∨ t.dev.read Loc.out0 = w) ∧ latch t = latch s) ∧
    (oks.length = 2 →
      t.dev.read Loc.out0 = w ∧ latch t = latch s ∨
      t.dev.read Loc.out0 = w ||| 0x01#8 ∧ latch t = (r, true)) ∧
    (oks.length = 3 →
      (t.dev.read Loc.out0 = w ||| 0x01#8 ∨ t.dev.read Loc.out0 = w) ∧ latch t = (r, true))

/-! ### READ_TEMP -/

/-- READ_TEMP (R211, R214): one two-byte read, first byte received high; `TEMP` is written if and only if `WB = 1`. That `TB0` and
`TB1` still hold the bytes after the command's end is the model's choice (log 24; R25 gives them no value there). -/
def Obligations.ReadTempStoresTheDecodedValue : Prop :=
  ∀ (wb : Bool) (s : State) (a : Answer) (rest : List EnvTurn), s.readyFor (.readTemp wb) →
    s.env = .answer a :: rest → a.ok = true →
    let d := s.dev.disturb a.others
    let b0 := d.read { dev := 0x18#7, off := 0x05#8, idx := 0 }
    let b1 := d.read { dev := 0x18#7, off := 0x05#8, idx := 1 }
    exec (.readTemp wb) s = .next { s.ended .noError 0#32 rest d
      [s.sent (readMessages 0x18#7 0x05#8 .two [b0, b1])]
      [{ address := 0x18#7, flags := 0#8, length := 1, bytes := [0x05#8] },
       { address := 0x18#7, flags := 1#8, length := 2, bytes := [b0, b1] }]
      with tb0 := b0, tb1 := b1, temp := if wb then decodeTemp b0 b1 else s.temp }

/-- "If the read fails: `TEMP` is not written, whatever `WB` is, and the command ends with TransportError(e)" (R211); no
device is changed by it and nothing is delivered (R77, R152). That the working registers, which then have no value (R152), keep
their old contents is the model's choice (log 24). -/
def Obligations.FailedReadTempLeavesTemp : Prop :=
  ∀ (wb : Bool) (s : State) (a : Answer) (rest : List EnvTurn), s.readyFor (.readTemp wb) →
    s.env = .answer a :: rest → a.ok = false →
    exec (.readTemp wb) s = .next (s.ended .transportError a.code.toWord rest (s.dev.disturb a.others)
      [.i2c s.handleBus (readMessages 0x18#7 0x05#8 .two []) (some a.code)] a.failTrace)

/-- "`16 * T = f + 256 * n - 4096 * s`, an integer in -4096..4095" (R213), bits 7:5 of the first byte taking no part (R212). The
form in sixteenths and its range are the spec's own inference from R212. -/
def Obligations.TemperatureDecodeIsExact : Prop :=
  ∀ b0 b1 : Byte,
    (decodeTemp b0 b1).toInt =
      (b1.toNat : Int) + 256 * ((b0.toNat % 16 : Nat) : Int) - 4096 * ((b0.toNat / 16 % 2 : Nat) : Int) ∧
    -4096 ≤ (decodeTemp b0 b1).toInt ∧ (decodeTemp b0 b1).toInt ≤ 4095

/-! ### Transport, failures, waiting -/

/-- After a failed write "the register at `(dev, off)` holds either its old value or `v` (a draw)", "after `readN` fails, no
device state has changed and no byte is delivered" (R77), and the error is TransportError(e) (R150, R152, R224). That a failed write
to `OUT0` which took effect also latches, as any write that reaches it, is the model's (log 11; R75 speaks of a successful
write), and so is that the working registers keep their old contents (log 24). -/
def Obligations.FailedTransactionOldOrNew : Prop :=
  ∀ (dev : DevAddr) (off val : Byte) (len : ReadLen) (deliver : List Byte → State → State) (s : State) (a : Answer)
    (rest : List EnvTurn), s.env = .answer a :: rest → a.ok = false →
    (∃ t, memWrite dev off val s = .halt t ∧ t.errKind = .transportError ∧ t.errCode = a.code.toWord ∧
      t.current = none ∧
      (a.took = false → t.dev = s.dev.disturb a.others) ∧
      (a.took = true → t.dev = (s.dev.disturb a.others).write { dev := dev, off := off, idx := 0 } val)) ∧
    (∃ t, memRead dev off len deliver s = .halt t ∧ t.errKind = .transportError ∧ t.errCode = a.code.toWord ∧
      t.current = none ∧ t.dev = s.dev.disturb a.others ∧ t.v0 = s.v0 ∧ t.v1 = s.v1 ∧ t.tb0 = s.tb0 ∧ t.tb1 = s.tb1)

/-- A step that fails with `Fail(e)` ends an engine command at once with `ERRKIND = TransportError, ERRCODE = e`; the steps after
it are not issued, the steps before it are not undone (R165, R224, R226). `w` is the command after the answers before the
failing one, waiting in that step's call, the one the step list has there: what follows `w` is that one failed transaction,
old or new in its register (R77). So a failed SETUP leaves a prefix of its four writes (R167 a, R258), and a failed
SET_PULSE or SET_VCO leaves `OUT1` as read or edited (R171, R227), when no other master writes to an expander during the
command, which `ExclusiveBus` implies (R72, `State.exclusiveBus`). That the call `w` waits in is not in its traffic, and that a
failed write to `OUT0` which took effect latches, are the model's (log 19, log 11). -/
def Obligations.EngineCommandStopsAtFirstFailure : Prop :=
  (∀ (i : Instr) (s : State) (oks : List Answer) (bad : Answer) (rest : List EnvTurn), isEngine i = true →
    s.readyFor i → s.env = oks.map .answer ++ .answer bad :: rest → (∀ a ∈ oks, a.ok = true) → bad.ok = false →
    oks.length < transportCalls s.rev i →
    ∃ w call sent t,
      exec i { s with env := oks.map .answer } = .next w ∧ w.current = some i ∧ w.inFlight = some call ∧
      call.target = (transportPlan s.rev i)[oks.length]? ∧ w.traffic = s.traffic ++ sent ∧
      sent.length = oks.length ∧ (∀ entry ∈ sent, ∃ m, entry = .i2c s.handleBus m none) ∧
      exec i s = .next t ∧ t.current = none ∧ t.errKind = .transportError ∧ t.errCode = bad.code.toWord ∧
      t.env = rest ∧ t.lifecycle = s.lifecycle ∧
      t.traffic = w.traffic ++ [.i2c s.handleBus call.messages (some bad.code)] ∧
      t.dev = if bad.took then call.effect (w.dev.disturb bad.others) else w.dev.disturb bad.others) ∧
  (∀ (s : State) (oks : List Answer) (bad : Answer) (rest : List EnvTurn), s.dev.mem.wf → s.readyFor .setup →
    s.env = oks.map .answer ++ .answer bad :: rest → oks.length < 4 →
    (∀ a ∈ oks, a.ok = true ∧ (EnvTurn.answer a).sparesExpanders = true) →
    bad.ok = false → (EnvTurn.answer bad).sparesExpanders = true →
    ∃ t, exec .setup s = .next t ∧ t.dev.att = s.dev.att ∧
      ∀ k l, [Loc.out0, Loc.cfg0, Loc.out1, Loc.cfg1][k]? = some l →
        (k < oks.length → t.dev.read l = 0x00#8) ∧
        (k = oks.length → t.dev.read l = s.dev.read l ∨ t.dev.read l = 0x00#8) ∧
        (oks.length < k → t.dev.read l = s.dev.read l)) ∧
  (∀ (pulseOn : Bool) (s : State) (oks : List Answer) (bad : Answer) (rest : List EnvTurn), s.dev.mem.wf →
    let i : Instr := if pulseOn then .setPulse else .setVco
    s.readyFor i → s.env = oks.map .answer ++ .answer bad :: rest →
    (∀ a ∈ oks, a.ok = true ∧ (EnvTurn.answer a).sparesExpanders = true) →
    bad.ok = false → (EnvTurn.answer bad).sparesExpanders = true →
    ∃ t, exec i s = .next t ∧
      (oks.length = 0 → t.dev.read Loc.out1 = s.dev.read Loc.out1) ∧
      (oks.length = 1 →
        t.dev.read Loc.out1 = s.dev.read Loc.out1 ∨
        t.dev.read Loc.out1 = modeEdit pulseOn (s.dev.read Loc.out1)))

/-- An engine command whose transactions all succeed issues exactly the number R165 counts, and ends without error. -/
def Obligations.EngineCommandIssuesItsTransactions : Prop :=
  ∀ (i : Instr) (s : State) (oks : List Answer) (rest : List EnvTurn), isEngine i = true →
    s.readyFor i → s.env = oks.map .answer ++ rest → (∀ a ∈ oks, a.ok = true) →
    oks.length = transportCalls s.rev i →
    ∃ t sent, exec i s = .next t ∧ t.current = none ∧ t.errKind = .noError ∧ t.errCode = 0#32 ∧ t.env = rest ∧
      t.traffic = s.traffic ++ sent ∧ sent.length = oks.length ∧
      ∀ entry ∈ sent, ∃ m, entry = .i2c s.handleBus m none

/-- An engine command that comes to its end returns 0, or the negated OS code of the transaction that failed, whose 32-bit
pattern is `2^32 - e` (R34, R110). -/
def Obligations.EngineCommandReturnsZeroOrNegatedCode : Prop :=
  ∀ (i : Instr) (s t : State), isEngine i = true → s.readyFor i → exec i s = .next t → t.current = none →
    (t.errKind = .noError ∧ t.returnValue = some 0) ∨
    (∃ e : Nat, 1 ≤ e ∧ e ≤ 2147483647 ∧ t.errKind = .transportError ∧ t.returnValue = some (-(e : Int)) ∧
      (BitVec.ofInt 32 (-(e : Int))).toNat = 2 ^ 32 - e)

/-- The two shapes of a transaction on the wire, the address bytes of the three devices, and the order of bits (R65,
R104, general knowledge by the spec's own mark); the counts CALCTL reads are counts the transport takes, whatever the
parameter `MAX_READ` is (R10, R153, D26). -/
def Obligations.TransactionsOnTheWire : Prop :=
  (∀ (dev : DevAddr) (off val b0 b1 : Byte),
    wire (writeMessages dev off val) = [.start, .sent (dev ++ 0#1), .sent off, .sent val, .stop] ∧
    wire (readMessages dev off .one [b0]) =
      [.start, .sent (dev ++ 0#1), .sent off, .repeatedStart, .sent (dev ++ 1#1), .received b0 false, .stop] ∧
    wire (readMessages dev off .two [b0, b1]) =
      [.start, .sent (dev ++ 0#1), .sent off, .repeatedStart, .sent (dev ++ 1#1), .received b0 true,
       .received b1 false, .stop]) ∧
  addressByte 0x38#7 false = 0x70#8 ∧ addressByte 0x38#7 true = 0x71#8 ∧
  addressByte 0x3F#7 false = 0x7E#8 ∧ addressByte 0x3F#7 true = 0x7F#8 ∧
  addressByte 0x18#7 false = 0x30#8 ∧ addressByte 0x18#7 true = 0x31#8 ∧
  (∀ (b : Byte) (k : Nat), k < 8 → (wireBits b)[k]? = some (b.getLsbD (7 - k))) ∧
  ∀ len : ReadLen, 1 ≤ len.count ∧ len.count ≤ Config.maxRead

/-- A command that asks the environment and gets no answer waits in its first call with `BUSY = 1` (R155, R262); other masters may
act meanwhile (R71). That a turn without an answer is an entry of a list is the model's (log 4, log 7), and so is that a call
in flight stands in neither the traffic (log 19) nor the trace (log 28). -/
def Obligations.CommandWaitsForItsFirstAnswer : Prop :=
  ∀ (i : Instr) (s : State) (call : Call), s.readyFor i → firstCall s i = some call →
    (s.env = [] → exec i s = .next { s.start i with inFlight := some call }) ∧
    (∀ ws rest, s.env = .silent ws :: rest →
      exec i s = .next { s.start i with inFlight := some call, env := rest, dev := s.dev.disturb ws })

/-- The time a call takes changes nothing (R21, R271): a command that has to wait for an answer and goes on later ends as if
the answer had come at once, with what other masters wrote during the wait written just before it (R71). That a wait is a
turn without an answer in a list is the model's (log 4, log 7). -/
def Obligations.LateAnswersMakeNoDifference : Prop :=
  ∀ (i : Instr) (s t : State) (early : List Answer) (ws : List (Loc × Byte)) (late : List EnvTurn),
    s.current = none → s.env = early.map .answer ++ .silent ws :: late → exec i s = .next t → t.current = some i →
    exec i t = exec i { s with env := early.map .answer ++ precededBy ws late }

/-! ### The debug trace -/

/-- "The trace never changes which transactions are issued, their order, their bytes, or any register of CALCTL" (R156):
from two states that differ in the trace and its switch alone, a command leads to two states that differ in these alone. -/
def Obligations.DebugTraceHasNoEffect : Prop :=
  ∀ (i : Instr) (s t : State), exec i s = .next t →
    ∃ u, exec i s.withoutTrace = .next u ∧ u.withoutTrace = t.withoutTrace

/-- "When `DEBUG = 0` nothing is reported" (R156); and only records are ever added. -/
def Obligations.NothingIsTracedWithDebugOff : Prop :=
  ∀ (i : Instr) (s t : State), exec i s = .next t →
    (s.debug = false → t.trace = s.trace) ∧ ∃ shown, t.trace = s.trace ++ shown

/-! ### Frames -/

/-- What commands leave alone, whatever the environment answers (R39, R144, R226): an engine command keeps every field of
the handle, the enable line and the host's argument registers; ENABLE and DISABLE keep all of these but the line;
ENABLE_DEBUG all but `DEBUG`; no command at all writes `BUSIDX` or `GPIOPIN`, or takes a host action; and a permitted
command leaves the sticky mark `faultSeen` of R273 alone, which is the model's own (log 9). -/
def Obligations.CommandsKeepTheHandle : Prop :=
  ∀ (i : Instr) (s t : State), exec i s = .next t →
    t.busIdx = s.busIdx ∧ t.gpioPin = s.gpioPin ∧ t.host = s.host ∧
    (s.lifecycle = gate i → t.faultSeen = s.faultSeen) ∧
    (i ≠ .close → (∀ revch, i ≠ .openDev revch) →
      t.lifecycle = s.lifecycle ∧ t.rev = s.rev ∧ t.busOpen = s.busOpen ∧ t.gpioOpen = s.gpioOpen ∧
      t.handleBus = s.handleBus ∧ t.handlePin = s.handlePin) ∧
    (i = .close → t.rev = s.rev ∧ t.handleBus = s.handleBus ∧ t.handlePin = s.handlePin) ∧
    ((∀ dbg, i ≠ .enableDebug dbg) → (∀ revch, i ≠ .openDev revch) → t.debug = s.debug) ∧
    (i ≠ .enable → i ≠ .disable → i ≠ .close → t.en = s.en)

/-- Which registers each command writes (R24, R35), whatever the environment answers: SETUP and the handle commands none,
SET_PULSE and SET_VCO `V1`, SELECT `V0` and `V1`, SET_ATTEN `V0`, `LVL`, `C`, `R`, READ_TEMP `TB0`, `TB1`, and `TEMP` with write-back
alone. That a working register a command does not write keeps its contents is the model's choice (log 24; R25 gives it no
value there). -/
def Obligations.CommandsKeepTheOtherRegisters : Prop :=
  ∀ (i : Instr) (s t : State), exec i s = .next t →
    (i ≠ .readTemp true → t.temp = s.temp) ∧
    ((∀ ch, i ≠ .select ch) → (∀ level, i ≠ .setAtten level) → t.v0 = s.v0) ∧
    ((∀ ch, i ≠ .select ch) → i ≠ .setPulse → i ≠ .setVco → t.v1 = s.v1) ∧
    ((∀ wb, i ≠ .readTemp wb) → t.tb0 = s.tb0 ∧ t.tb1 = s.tb1) ∧
    ((∀ level, i ≠ .setAtten level) → t.lvl = s.lvl ∧ t.c = s.c ∧ t.r = s.r)

/-- Every byte of the I2C register space stays but those the command writes (R43) and those another master writes (R71),
whatever the environment answers; and the attenuator's latch stays under a command that never sends a byte with
load-enable set (R75). -/
def Obligations.CommandsKeepEveryOtherByte : Prop :=
  ∀ (i : Instr) (s t : State), exec i s = .next t →
    (∀ key, (∀ l ∈ storedLocs i, l.key ≠ key) → s.undisturbedAt key = true →
      t.dev.mem.get key = s.dev.mem.get key) ∧
    ((∀ ch, i ≠ .select ch) → (∀ level, i ≠ .setAtten level) → s.undisturbedAt Loc.out0.key = true →
      t.dev.att = s.dev.att ∧ t.dev.everLatched = s.dev.everLatched)

/-! ### The machine's invariant -/

/-- Every step keeps the invariant: the canonical form of the register space, `ERRCODE` in its range (R34), `STEP = 0` and
nothing in flight when idle (R272), the lifecycle and the resources in step (R32, R144), and a waiting command at one
of its own steps with the resources it holds there (R27, R130, R154). -/
def Obligations.StepKeepsTheMachineConsistent : Prop :=
  ∀ s t : State, s.Consistent → step s = .next t → t.Consistent

/-- The machine right after reset meets the invariant (R251). -/
def Obligations.ResetMachineIsConsistent : Prop :=
  State.reset.Consistent
end

