-- ==== Sys2Proof/Laws/Devices.lean ====
section
/-! SUPPORT. What the memory and device operations do: read after write, every other byte untouched, the canonical form
kept. -/

namespace Sys2Proof.Machine

/-- Keys stay inside the space (R60). -/
theorem Loc.key_lt (l : Loc) : l.key < Config.spaceSize := by
  have h1 := l.dev.isLt
  have h2 := l.off.isLt
  have h3 := l.idx.isLt
  simp only [Loc.key, Config.spaceSize]
  omega

/-- Different bytes of the space have different keys. -/
theorem Loc.key_injective {l l' : Loc} (h : l.key = l'.key) : l = l' := by
  have h1 := l.off.isLt
  have h2 := l'.off.isLt
  have h3 := l.idx.isLt
  have h4 := l'.idx.isLt
  simp only [Loc.key] at h
  have e1 : l.dev = l'.dev := BitVec.eq_of_toNat_eq (by omega)
  have e2 : l.off = l'.off := BitVec.eq_of_toNat_eq (by omega)
  have e3 : l.idx = l'.idx := Fin.ext (by omega)
  cases l
  cases l'
  simp_all

@[simp] theorem Memory.get_nil (a : Nat) : Memory.get [] a = Config.unlistedByte := rfl

theorem Memory.get_cell (cell : Host.Cell) (rest : Memory) (a : Nat) :
    Memory.get (cell :: rest) a = if cell.1 = a then cell.2 else Memory.get rest a := rfl

theorem Memory.get_cons_ne {a b : Nat} (h : b ≠ a) (v : Byte) (m : Memory) :
    (Memory.cons a v m).get b = m.get b := by
  simp only [Memory.cons]
  split
  · rfl
  · simp [Memory.get_cell, Ne.symm h]

/-- Storing a byte leaves every other byte alone. -/
theorem Memory.get_set_ne {a b : Nat} (h : b ≠ a) (v : Byte) (m : Memory) : (m.set a v).get b = m.get b := by
  induction m with
  | nil => exact Memory.get_cons_ne h v []
  | cons cell rest ih =>
    simp only [Memory.set]
    split
    · exact Memory.get_cons_ne h v _
    · split
      · rename_i hkey
        rw [Memory.get_cons_ne h, Memory.get_cell, if_neg (by omega)]
      · rw [Memory.get_cell, Memory.get_cell, ih]

theorem Memory.get_above {a : Nat} {m : Memory} (h : ∀ cell ∈ m, a < cell.1) : m.get a = Config.unlistedByte := by
  induction m with
  | nil => rfl
  | cons cell rest ih =>
    have := h cell (by simp)
    rw [Memory.get_cell, if_neg (by omega), ih fun c hc => h c (by simp [hc])]

theorem Memory.get_cons_self {a : Nat} {v : Byte} {m : Memory} (h : ∀ cell ∈ m, a < cell.1) :
    (Memory.cons a v m).get a = v := by
  simp only [Memory.cons]
  split
  · rename_i hv
    rw [Memory.get_above h, hv]
  · simp [Memory.get_cell]

/-- Storing a byte and reading it back gives that byte. -/
theorem Memory.get_set_self {m : Memory} (hm : m.wf) (a : Nat) (v : Byte) : (m.set a v).get a = v := by
  induction m with
  | nil => exact Memory.get_cons_self (by simp)
  | cons cell rest ih =>
    obtain ⟨hp, hc⟩ := hm
    rw [List.pairwise_cons] at hp
    simp only [Memory.set]
    split
    · rename_i hlt
      refine Memory.get_cons_self fun c hcm => ?_
      rcases List.mem_cons.mp hcm with rfl | hcr
      · exact hlt
      · exact Nat.lt_trans hlt (hp.1 c hcr)
    · split
      · rename_i heq
        exact Memory.get_cons_self fun c hcr => heq ▸ hp.1 c hcr
      · rename_i hne
        rw [Memory.get_cell, if_neg (by omega)]
        exact ih ⟨hp.2, fun c hcr => hc c (by simp [hcr])⟩

theorem Memory.cons_wf {a : Nat} {v : Byte} {m : Memory} (hm : m.wf) (ha : a < Config.spaceSize)
    (h : ∀ cell ∈ m, a < cell.1) : (Memory.cons a v m).wf := by
  simp only [Memory.cons]
  split
  · exact hm
  · rename_i hv
    refine ⟨List.pairwise_cons.mpr ⟨h, hm.1⟩, fun c hc => ?_⟩
    rcases List.mem_cons.mp hc with rfl | hcm
    · exact ⟨ha, hv⟩
    · exact hm.2 c hcm

theorem Memory.mem_set {a : Nat} {v : Byte} {m : Memory} {c : Host.Cell} (h : c ∈ m.set a v) : c.1 = a ∨ c ∈ m := by
  have hcons : ∀ n : Memory, c ∈ Memory.cons a v n → c.1 = a ∨ c ∈ n := by
    intro n hn
    simp only [Memory.cons] at hn
    split at hn
    · exact .inr hn
    · rcases List.mem_cons.mp hn with rfl | hr
      · exact .inl rfl
      · exact .inr hr
  induction m with
  | nil => exact hcons _ h
  | cons cell rest ih =>
    simp only [Memory.set] at h
    split at h
    · exact hcons _ h
    · split at h
      · exact (hcons _ h).imp_right (by simp +contextual)
      · rcases List.mem_cons.mp h with rfl | hr
        · simp
        · exact (ih hr).imp_right (by simp +contextual)

/-- Storing a byte keeps the canonical form. -/
theorem Memory.set_wf {a : Nat} {v : Byte} {m : Memory} (hm : m.wf) (ha : a < Config.spaceSize) : (m.set a v).wf := by
  induction m with
  | nil => exact Memory.cons_wf hm ha (by simp)
  | cons cell rest ih =>
    have hrest : Memory.wf rest := ⟨(List.pairwise_cons.mp hm.1).2, fun c hc => hm.2 c (by simp [hc])⟩
    have hcell := (List.pairwise_cons.mp hm.1).1
    simp only [Memory.set]
    split
    · rename_i hlt
      refine Memory.cons_wf hm ha fun c hc => ?_
      rcases List.mem_cons.mp hc with rfl | hcr
      · exact hlt
      · exact Nat.lt_trans hlt (hcell c hcr)
    · split
      · rename_i heq
        exact Memory.cons_wf hrest ha fun c hc => heq ▸ hcell c hc
      · rename_i hge hne
        refine ⟨List.pairwise_cons.mpr ⟨fun c hc => ?_, (ih hrest).1⟩, fun c hc => ?_⟩
        · rcases Memory.mem_set hc with h | h
          · omega
          · exact hcell c h
        · rcases List.mem_cons.mp hc with rfl | hcr
          · exact hm.2 c (by simp)
          · exact (ih hrest).2 c hcr

/-! ### Devices -/

@[simp] theorem Devices.write_mem (d : Devices) (l : Loc) (v : Byte) : (d.write l v).mem = d.mem.set l.key v := rfl
@[simp] theorem Devices.write_att (d : Devices) (l : Loc) (v : Byte) : (d.write l v).att = latched l v d.att := rfl
@[simp] theorem Devices.write_everLatched (d : Devices) (l : Loc) (v : Byte) :
    (d.write l v).everLatched = (d.everLatched || latches l v) := rfl
@[simp] theorem Devices.disturb_nil (d : Devices) : d.disturb [] = d := rfl
@[simp] theorem Devices.disturb_cons (d : Devices) (w : Loc × Byte) (ws : List (Loc × Byte)) :
    d.disturb (w :: ws) = (d.write w.1 w.2).disturb ws := rfl

/-- Writes one after the other are the writes of the joined list. -/
theorem Devices.disturb_append (d : Devices) (ws vs : List (Loc × Byte)) :
    d.disturb (ws ++ vs) = (d.disturb ws).disturb vs :=
  List.foldl_append

theorem latches_ne {l : Loc} (h : l ≠ Loc.out0) (v : Byte) : latches l v = false := by simp [latches, h]

theorem latched_ne {l : Loc} (h : l ≠ Loc.out0) (v : Byte) (old : BitVec 6) : latched l v old = old := by
  simp [latched, latches_ne h]

theorem Devices.write_wf {d : Devices} (h : d.mem.wf) (l : Loc) (v : Byte) : (d.write l v).mem.wf :=
  Memory.set_wf h l.key_lt

theorem Devices.disturb_wf {d : Devices} (h : d.mem.wf) (ws : List (Loc × Byte)) : (d.disturb ws).mem.wf := by
  induction ws generalizing d with
  | nil => exact h
  | cons w ws ih => exact ih (Devices.write_wf h w.1 w.2)

/-- A call that takes effect keeps the canonical form. -/
theorem Call.effect_wf {d : Devices} (h : d.mem.wf) (call : Call) : (call.effect d).mem.wf := by
  cases call with
  | write dev off val => exact Devices.write_wf h ..
  | read | gpioWrite | bootstrap | busAcquire | gpioAcquire => exact h

theorem Devices.read_write_self {d : Devices} (h : d.mem.wf) (l : Loc) (v : Byte) : (d.write l v).read l = v :=
  Memory.get_set_self h l.key v

theorem Devices.read_write_ne {l l' : Loc} (h : l' ≠ l) (d : Devices) (v : Byte) : (d.write l v).read l' = d.read l' :=
  Memory.get_set_ne (fun hk => h (Loc.key_injective hk)) v d.mem

/-- What others do not touch stays. -/
theorem Devices.get_disturb {a : Nat} {ws : List (Loc × Byte)} (h : (ws.any fun w => w.1.key == a) = false)
    (d : Devices) : (d.disturb ws).mem.get a = d.mem.get a := by
  induction ws generalizing d with
  | nil => rfl
  | cons w ws ih =>
    simp only [List.any_cons, Bool.or_eq_false_iff, beq_eq_false_iff_ne] at h
    rw [Devices.disturb_cons, ih h.2, Devices.write_mem, Memory.get_set_ne (Ne.symm h.1)]

/-- What others write to no expander leaves every expander register and the attenuator's latch alone (R72). -/
theorem Devices.disturb_spared {ws : List (Loc × Byte)}
    (h : (ws.all fun w => w.1.dev != Config.expander0 && w.1.dev != Config.expander1) = true) (d : Devices) :
    (d.disturb ws).att = d.att ∧ (d.disturb ws).everLatched = d.everLatched ∧
      ∀ l : Loc, l.dev = Config.expander0 ∨ l.dev = Config.expander1 → (d.disturb ws).read l = d.read l := by
  induction ws generalizing d with
  | nil => simp
  | cons w ws ih =>
    simp only [List.all_cons, Bool.and_eq_true, bne_iff_ne, ne_eq] at h
    obtain ⟨⟨h0, h1⟩, hr⟩ := h
    have hne : w.1 ≠ Loc.out0 := fun he => h0 (by rw [he]; rfl)
    obtain ⟨ha, hb, hc⟩ := ih (by simpa using hr) (d.write w.1 w.2)
    refine ⟨ha.trans (latched_ne hne ..), hb.trans (by simp [latches_ne hne]), fun l hl => (hc l hl).trans ?_⟩
    refine Devices.read_write_ne (fun he => ?_) d w.2
    rw [he] at hl
    exact hl.elim h0 h1

end Sys2Proof.Machine
end

