-- ==== Sys2Proof/Laws/Encoding.lean ====
section
/-! SUPPORT. How a command word splits into its fields, and what a row of the opcode table says of the fields its mask
covers. -/

namespace Sys2Proof

/-- A word is its opcode byte followed by its other 24 bits (R90). -/
theorem opcode_append (w : Word) : opcode w ++ w.extractLsb' 0 24 = w := by
  have := BitVec.extractLsb'_append_extractLsb'_eq_extractLsb' (x := w) (start₂ := 24) (start₁ := 0) (len₁ := 24)
    (len₂ := 8) rfl
  simpa [opcode] using this

theorem opcode_eq {w : Word} {n : Nat} (h : (opcode w).toNat = n) : opcode w = BitVec.ofNat 8 n := by
  rw [← h, BitVec.ofNat_toNat, BitVec.setWidth_eq]

/-- Format V's operand field (R91). -/
theorem split_formatV (w : Word) : w.extractLsb' 8 16 ++ w.extractLsb' 0 8 = w.extractLsb' 0 24 :=
  BitVec.extractLsb'_append_extractLsb'_eq_extractLsb' rfl

/-- Format C's operand field (R91). -/
theorem split_formatC (w : Word) : w.extractLsb' 2 22 ++ w.extractLsb' 0 2 = w.extractLsb' 0 24 :=
  BitVec.extractLsb'_append_extractLsb'_eq_extractLsb' rfl

/-- Format F's operand field (R91). -/
theorem split_formatF (w : Word) : w.extractLsb' 1 23 ++ w.extractLsb' 0 1 = w.extractLsb' 0 24 :=
  BitVec.extractLsb'_append_extractLsb'_eq_extractLsb' rfl

/-- Format L's operand field (R91). -/
theorem split_formatL (w : Word) : w.extractLsb' 16 8 ++ w.extractLsb' 0 16 = w.extractLsb' 0 24 :=
  BitVec.extractLsb'_append_extractLsb'_eq_extractLsb' rfl

theorem extract_bit0 (w : Word) : w.extractLsb' 0 1 = BitVec.ofBool (w.getLsbD 0) := by
  ext k hk
  obtain rfl : k = 0 := by omega
  simp

/-- Where a row's mask is all ones, a word it selects has the row's bits (R96). -/
theorem OpcodeRow.selects_extract {row : OpcodeRow} {w : Word} (h : row.selects w) (lo n : Nat)
    (hm : row.mask.extractLsb' lo n = BitVec.allOnes n) : w.extractLsb' lo n = row.value.extractLsb' lo n := by
  rw [← h, BitVec.extractLsb'_and, hm, BitVec.and_allOnes]

/-- No two rows overlap (R96): where both masks look, two different rows differ. -/
theorem opcodeTable_disjoint : ∀ row ∈ opcodeTable, ∀ other ∈ opcodeTable,
    row.value &&& (row.mask &&& other.mask) = other.value &&& (row.mask &&& other.mask) → row = other := by
  decide

/-- Decoding the two-bit channel code gives the channel back, and the other way round (R93). -/
theorem Channel.ofCode_code (ch : Channel) : Channel.ofCode ch.code = ch := by
  cases ch <;> rfl

theorem Channel.code_ofCode : ∀ c : BitVec 2, (Channel.ofCode c).code = c := by
  decide

end Sys2Proof
end

