-- ==== Sys2Proof/Laws/State.lean ====
section
/-! SUPPORT. What each named update of the state does to each field, true by definition, so that no later proof unfolds a
record update. -/

namespace Sys2Proof.Machine

/-! ### `State.start`: the start of a command (R37) -/

@[simp] theorem State.start_current (i : Instr) (s : State) : (s.start i).current = some i := rfl
@[simp] theorem State.start_lifecycle (i : Instr) (s : State) : (s.start i).lifecycle = s.lifecycle := rfl
@[simp] theorem State.start_rev (i : Instr) (s : State) : (s.start i).rev = s.rev := rfl
@[simp] theorem State.start_debug (i : Instr) (s : State) : (s.start i).debug = s.debug := rfl
@[simp] theorem State.start_busOpen (i : Instr) (s : State) : (s.start i).busOpen = s.busOpen := rfl
@[simp] theorem State.start_gpioOpen (i : Instr) (s : State) : (s.start i).gpioOpen = s.gpioOpen := rfl
@[simp] theorem State.start_errKind (i : Instr) (s : State) : (s.start i).errKind = .noError := rfl
@[simp] theorem State.start_errCode (i : Instr) (s : State) : (s.start i).errCode = 0#32 := rfl
@[simp] theorem State.start_temp (i : Instr) (s : State) : (s.start i).temp = s.temp := rfl
@[simp] theorem State.start_busIdx (i : Instr) (s : State) : (s.start i).busIdx = s.busIdx := rfl
@[simp] theorem State.start_gpioPin (i : Instr) (s : State) : (s.start i).gpioPin = s.gpioPin := rfl
@[simp] theorem State.start_handleBus (i : Instr) (s : State) : (s.start i).handleBus = s.handleBus := rfl
@[simp] theorem State.start_handlePin (i : Instr) (s : State) : (s.start i).handlePin = s.handlePin := rfl
@[simp] theorem State.start_step (i : Instr) (s : State) : (s.start i).step = 0#3 := rfl
@[simp] theorem State.start_v0 (i : Instr) (s : State) : (s.start i).v0 = s.v0 := rfl
@[simp] theorem State.start_v1 (i : Instr) (s : State) : (s.start i).v1 = s.v1 := rfl
@[simp] theorem State.start_tb0 (i : Instr) (s : State) : (s.start i).tb0 = s.tb0 := rfl
@[simp] theorem State.start_tb1 (i : Instr) (s : State) : (s.start i).tb1 = s.tb1 := rfl
@[simp] theorem State.start_lvl (i : Instr) (s : State) : (s.start i).lvl = s.lvl := rfl
@[simp] theorem State.start_c (i : Instr) (s : State) : (s.start i).c = s.c := rfl
@[simp] theorem State.start_r (i : Instr) (s : State) : (s.start i).r = s.r := rfl
@[simp] theorem State.start_en (i : Instr) (s : State) : (s.start i).en = s.en := rfl
@[simp] theorem State.start_inFlight (i : Instr) (s : State) : (s.start i).inFlight = s.inFlight := rfl
@[simp] theorem State.start_dev (i : Instr) (s : State) : (s.start i).dev = s.dev := rfl
@[simp] theorem State.start_traffic (i : Instr) (s : State) : (s.start i).traffic = s.traffic := rfl
@[simp] theorem State.start_trace (i : Instr) (s : State) : (s.start i).trace = s.trace := rfl
@[simp] theorem State.start_faultSeen (i : Instr) (s : State) : (s.start i).faultSeen = s.faultSeen := rfl
@[simp] theorem State.start_host (i : Instr) (s : State) : (s.start i).host = s.host := rfl
@[simp] theorem State.start_env (i : Instr) (s : State) : (s.start i).env = s.env := rfl

/-! ### `State.raise`: an error (R226) -/

@[simp] theorem State.raise_current (k : ErrKind) (e : Word) (s : State) : (s.raise k e).current = none := rfl
@[simp] theorem State.raise_lifecycle (k : ErrKind) (e : Word) (s : State) : (s.raise k e).lifecycle = s.lifecycle := rfl
@[simp] theorem State.raise_rev (k : ErrKind) (e : Word) (s : State) : (s.raise k e).rev = s.rev := rfl
@[simp] theorem State.raise_debug (k : ErrKind) (e : Word) (s : State) : (s.raise k e).debug = s.debug := rfl
@[simp] theorem State.raise_busOpen (k : ErrKind) (e : Word) (s : State) : (s.raise k e).busOpen = s.busOpen := rfl
@[simp] theorem State.raise_gpioOpen (k : ErrKind) (e : Word) (s : State) : (s.raise k e).gpioOpen = s.gpioOpen := rfl
@[simp] theorem State.raise_errKind (k : ErrKind) (e : Word) (s : State) : (s.raise k e).errKind = k := rfl
@[simp] theorem State.raise_errCode (k : ErrKind) (e : Word) (s : State) : (s.raise k e).errCode = e := rfl
@[simp] theorem State.raise_temp (k : ErrKind) (e : Word) (s : State) : (s.raise k e).temp = s.temp := rfl
@[simp] theorem State.raise_busIdx (k : ErrKind) (e : Word) (s : State) : (s.raise k e).busIdx = s.busIdx := rfl
@[simp] theorem State.raise_gpioPin (k : ErrKind) (e : Word) (s : State) : (s.raise k e).gpioPin = s.gpioPin := rfl
@[simp] theorem State.raise_handleBus (k : ErrKind) (e : Word) (s : State) : (s.raise k e).handleBus = s.handleBus := rfl
@[simp] theorem State.raise_handlePin (k : ErrKind) (e : Word) (s : State) : (s.raise k e).handlePin = s.handlePin := rfl
@[simp] theorem State.raise_step (k : ErrKind) (e : Word) (s : State) : (s.raise k e).step = 0#3 := rfl
@[simp] theorem State.raise_v0 (k : ErrKind) (e : Word) (s : State) : (s.raise k e).v0 = s.v0 := rfl
@[simp] theorem State.raise_v1 (k : ErrKind) (e : Word) (s : State) : (s.raise k e).v1 = s.v1 := rfl
@[simp] theorem State.raise_tb0 (k : ErrKind) (e : Word) (s : State) : (s.raise k e).tb0 = s.tb0 := rfl
@[simp] theorem State.raise_tb1 (k : ErrKind) (e : Word) (s : State) : (s.raise k e).tb1 = s.tb1 := rfl
@[simp] theorem State.raise_lvl (k : ErrKind) (e : Word) (s : State) : (s.raise k e).lvl = s.lvl := rfl
@[simp] theorem State.raise_c (k : ErrKind) (e : Word) (s : State) : (s.raise k e).c = s.c := rfl
@[simp] theorem State.raise_r (k : ErrKind) (e : Word) (s : State) : (s.raise k e).r = s.r := rfl
@[simp] theorem State.raise_en (k : ErrKind) (e : Word) (s : State) : (s.raise k e).en = s.en := rfl
@[simp] theorem State.raise_inFlight (k : ErrKind) (e : Word) (s : State) : (s.raise k e).inFlight = s.inFlight := rfl
@[simp] theorem State.raise_dev (k : ErrKind) (e : Word) (s : State) : (s.raise k e).dev = s.dev := rfl
@[simp] theorem State.raise_traffic (k : ErrKind) (e : Word) (s : State) : (s.raise k e).traffic = s.traffic := rfl
@[simp] theorem State.raise_trace (k : ErrKind) (e : Word) (s : State) : (s.raise k e).trace = s.trace := rfl
@[simp] theorem State.raise_faultSeen (k : ErrKind) (e : Word) (s : State) : (s.raise k e).faultSeen = s.faultSeen := rfl
@[simp] theorem State.raise_host (k : ErrKind) (e : Word) (s : State) : (s.raise k e).host = s.host := rfl
@[simp] theorem State.raise_env (k : ErrKind) (e : Word) (s : State) : (s.raise k e).env = s.env := rfl

/-! ### `State.finish`: a successful end (R28) -/

@[simp] theorem State.finish_current (s : State) : (s.finish).current = none := rfl
@[simp] theorem State.finish_lifecycle (s : State) : (s.finish).lifecycle = s.lifecycle := rfl
@[simp] theorem State.finish_rev (s : State) : (s.finish).rev = s.rev := rfl
@[simp] theorem State.finish_debug (s : State) : (s.finish).debug = s.debug := rfl
@[simp] theorem State.finish_busOpen (s : State) : (s.finish).busOpen = s.busOpen := rfl
@[simp] theorem State.finish_gpioOpen (s : State) : (s.finish).gpioOpen = s.gpioOpen := rfl
@[simp] theorem State.finish_errKind (s : State) : (s.finish).errKind = .noError := rfl
@[simp] theorem State.finish_errCode (s : State) : (s.finish).errCode = 0#32 := rfl
@[simp] theorem State.finish_temp (s : State) : (s.finish).temp = s.temp := rfl
@[simp] theorem State.finish_busIdx (s : State) : (s.finish).busIdx = s.busIdx := rfl
@[simp] theorem State.finish_gpioPin (s : State) : (s.finish).gpioPin = s.gpioPin := rfl
@[simp] theorem State.finish_handleBus (s : State) : (s.finish).handleBus = s.handleBus := rfl
@[simp] theorem State.finish_handlePin (s : State) : (s.finish).handlePin = s.handlePin := rfl
@[simp] theorem State.finish_step (s : State) : (s.finish).step = 0#3 := rfl
@[simp] theorem State.finish_v0 (s : State) : (s.finish).v0 = s.v0 := rfl
@[simp] theorem State.finish_v1 (s : State) : (s.finish).v1 = s.v1 := rfl
@[simp] theorem State.finish_tb0 (s : State) : (s.finish).tb0 = s.tb0 := rfl
@[simp] theorem State.finish_tb1 (s : State) : (s.finish).tb1 = s.tb1 := rfl
@[simp] theorem State.finish_lvl (s : State) : (s.finish).lvl = s.lvl := rfl
@[simp] theorem State.finish_c (s : State) : (s.finish).c = s.c := rfl
@[simp] theorem State.finish_r (s : State) : (s.finish).r = s.r := rfl
@[simp] theorem State.finish_en (s : State) : (s.finish).en = s.en := rfl
@[simp] theorem State.finish_inFlight (s : State) : (s.finish).inFlight = s.inFlight := rfl
@[simp] theorem State.finish_dev (s : State) : (s.finish).dev = s.dev := rfl
@[simp] theorem State.finish_traffic (s : State) : (s.finish).traffic = s.traffic := rfl
@[simp] theorem State.finish_trace (s : State) : (s.finish).trace = s.trace := rfl
@[simp] theorem State.finish_faultSeen (s : State) : (s.finish).faultSeen = s.faultSeen := rfl
@[simp] theorem State.finish_host (s : State) : (s.finish).host = s.host := rfl
@[simp] theorem State.finish_env (s : State) : (s.finish).env = s.env := rfl

/-! ### `State.markFault`: the sticky mark (R273) -/

@[simp] theorem State.markFault_current (s : State) : (s.markFault).current = s.current := rfl
@[simp] theorem State.markFault_lifecycle (s : State) : (s.markFault).lifecycle = s.lifecycle := rfl
@[simp] theorem State.markFault_rev (s : State) : (s.markFault).rev = s.rev := rfl
@[simp] theorem State.markFault_debug (s : State) : (s.markFault).debug = s.debug := rfl
@[simp] theorem State.markFault_busOpen (s : State) : (s.markFault).busOpen = s.busOpen := rfl
@[simp] theorem State.markFault_gpioOpen (s : State) : (s.markFault).gpioOpen = s.gpioOpen := rfl
@[simp] theorem State.markFault_errKind (s : State) : (s.markFault).errKind = s.errKind := rfl
@[simp] theorem State.markFault_errCode (s : State) : (s.markFault).errCode = s.errCode := rfl
@[simp] theorem State.markFault_temp (s : State) : (s.markFault).temp = s.temp := rfl
@[simp] theorem State.markFault_busIdx (s : State) : (s.markFault).busIdx = s.busIdx := rfl
@[simp] theorem State.markFault_gpioPin (s : State) : (s.markFault).gpioPin = s.gpioPin := rfl
@[simp] theorem State.markFault_handleBus (s : State) : (s.markFault).handleBus = s.handleBus := rfl
@[simp] theorem State.markFault_handlePin (s : State) : (s.markFault).handlePin = s.handlePin := rfl
@[simp] theorem State.markFault_step (s : State) : (s.markFault).step = s.step := rfl
@[simp] theorem State.markFault_v0 (s : State) : (s.markFault).v0 = s.v0 := rfl
@[simp] theorem State.markFault_v1 (s : State) : (s.markFault).v1 = s.v1 := rfl
@[simp] theorem State.markFault_tb0 (s : State) : (s.markFault).tb0 = s.tb0 := rfl
@[simp] theorem State.markFault_tb1 (s : State) : (s.markFault).tb1 = s.tb1 := rfl
@[simp] theorem State.markFault_lvl (s : State) : (s.markFault).lvl = s.lvl := rfl
@[simp] theorem State.markFault_c (s : State) : (s.markFault).c = s.c := rfl
@[simp] theorem State.markFault_r (s : State) : (s.markFault).r = s.r := rfl
@[simp] theorem State.markFault_en (s : State) : (s.markFault).en = s.en := rfl
@[simp] theorem State.markFault_inFlight (s : State) : (s.markFault).inFlight = s.inFlight := rfl
@[simp] theorem State.markFault_dev (s : State) : (s.markFault).dev = s.dev := rfl
@[simp] theorem State.markFault_traffic (s : State) : (s.markFault).traffic = s.traffic := rfl
@[simp] theorem State.markFault_trace (s : State) : (s.markFault).trace = s.trace := rfl
@[simp] theorem State.markFault_faultSeen (s : State) : (s.markFault).faultSeen = true := rfl
@[simp] theorem State.markFault_host (s : State) : (s.markFault).host = s.host := rfl
@[simp] theorem State.markFault_env (s : State) : (s.markFault).env = s.env := rfl

/-! ### `State.advance`: the step counter (R28) -/

@[simp] theorem State.advance_current (s : State) : (s.advance).current = s.current := rfl
@[simp] theorem State.advance_lifecycle (s : State) : (s.advance).lifecycle = s.lifecycle := rfl
@[simp] theorem State.advance_rev (s : State) : (s.advance).rev = s.rev := rfl
@[simp] theorem State.advance_debug (s : State) : (s.advance).debug = s.debug := rfl
@[simp] theorem State.advance_busOpen (s : State) : (s.advance).busOpen = s.busOpen := rfl
@[simp] theorem State.advance_gpioOpen (s : State) : (s.advance).gpioOpen = s.gpioOpen := rfl
@[simp] theorem State.advance_errKind (s : State) : (s.advance).errKind = s.errKind := rfl
@[simp] theorem State.advance_errCode (s : State) : (s.advance).errCode = s.errCode := rfl
@[simp] theorem State.advance_temp (s : State) : (s.advance).temp = s.temp := rfl
@[simp] theorem State.advance_busIdx (s : State) : (s.advance).busIdx = s.busIdx := rfl
@[simp] theorem State.advance_gpioPin (s : State) : (s.advance).gpioPin = s.gpioPin := rfl
@[simp] theorem State.advance_handleBus (s : State) : (s.advance).handleBus = s.handleBus := rfl
@[simp] theorem State.advance_handlePin (s : State) : (s.advance).handlePin = s.handlePin := rfl
@[simp] theorem State.advance_step (s : State) : (s.advance).step = s.step + 1#3 := rfl
@[simp] theorem State.advance_v0 (s : State) : (s.advance).v0 = s.v0 := rfl
@[simp] theorem State.advance_v1 (s : State) : (s.advance).v1 = s.v1 := rfl
@[simp] theorem State.advance_tb0 (s : State) : (s.advance).tb0 = s.tb0 := rfl
@[simp] theorem State.advance_tb1 (s : State) : (s.advance).tb1 = s.tb1 := rfl
@[simp] theorem State.advance_lvl (s : State) : (s.advance).lvl = s.lvl := rfl
@[simp] theorem State.advance_c (s : State) : (s.advance).c = s.c := rfl
@[simp] theorem State.advance_r (s : State) : (s.advance).r = s.r := rfl
@[simp] theorem State.advance_en (s : State) : (s.advance).en = s.en := rfl
@[simp] theorem State.advance_inFlight (s : State) : (s.advance).inFlight = s.inFlight := rfl
@[simp] theorem State.advance_dev (s : State) : (s.advance).dev = s.dev := rfl
@[simp] theorem State.advance_traffic (s : State) : (s.advance).traffic = s.traffic := rfl
@[simp] theorem State.advance_trace (s : State) : (s.advance).trace = s.trace := rfl
@[simp] theorem State.advance_faultSeen (s : State) : (s.advance).faultSeen = s.faultSeen := rfl
@[simp] theorem State.advance_host (s : State) : (s.advance).host = s.host := rfl
@[simp] theorem State.advance_env (s : State) : (s.advance).env = s.env := rfl

/-! ### `State.note`: a note of a platform action (R272) -/

@[simp] theorem State.note_current (t : Traffic) (s : State) : (s.note t).current = s.current := rfl
@[simp] theorem State.note_lifecycle (t : Traffic) (s : State) : (s.note t).lifecycle = s.lifecycle := rfl
@[simp] theorem State.note_rev (t : Traffic) (s : State) : (s.note t).rev = s.rev := rfl
@[simp] theorem State.note_debug (t : Traffic) (s : State) : (s.note t).debug = s.debug := rfl
@[simp] theorem State.note_busOpen (t : Traffic) (s : State) : (s.note t).busOpen = s.busOpen := rfl
@[simp] theorem State.note_gpioOpen (t : Traffic) (s : State) : (s.note t).gpioOpen = s.gpioOpen := rfl
@[simp] theorem State.note_errKind (t : Traffic) (s : State) : (s.note t).errKind = s.errKind := rfl
@[simp] theorem State.note_errCode (t : Traffic) (s : State) : (s.note t).errCode = s.errCode := rfl
@[simp] theorem State.note_temp (t : Traffic) (s : State) : (s.note t).temp = s.temp := rfl
@[simp] theorem State.note_busIdx (t : Traffic) (s : State) : (s.note t).busIdx = s.busIdx := rfl
@[simp] theorem State.note_gpioPin (t : Traffic) (s : State) : (s.note t).gpioPin = s.gpioPin := rfl
@[simp] theorem State.note_handleBus (t : Traffic) (s : State) : (s.note t).handleBus = s.handleBus := rfl
@[simp] theorem State.note_handlePin (t : Traffic) (s : State) : (s.note t).handlePin = s.handlePin := rfl
@[simp] theorem State.note_step (t : Traffic) (s : State) : (s.note t).step = s.step := rfl
@[simp] theorem State.note_v0 (t : Traffic) (s : State) : (s.note t).v0 = s.v0 := rfl
@[simp] theorem State.note_v1 (t : Traffic) (s : State) : (s.note t).v1 = s.v1 := rfl
@[simp] theorem State.note_tb0 (t : Traffic) (s : State) : (s.note t).tb0 = s.tb0 := rfl
@[simp] theorem State.note_tb1 (t : Traffic) (s : State) : (s.note t).tb1 = s.tb1 := rfl
@[simp] theorem State.note_lvl (t : Traffic) (s : State) : (s.note t).lvl = s.lvl := rfl
@[simp] theorem State.note_c (t : Traffic) (s : State) : (s.note t).c = s.c := rfl
@[simp] theorem State.note_r (t : Traffic) (s : State) : (s.note t).r = s.r := rfl
@[simp] theorem State.note_en (t : Traffic) (s : State) : (s.note t).en = s.en := rfl
@[simp] theorem State.note_inFlight (t : Traffic) (s : State) : (s.note t).inFlight = s.inFlight := rfl
@[simp] theorem State.note_dev (t : Traffic) (s : State) : (s.note t).dev = s.dev := rfl
@[simp] theorem State.note_traffic (t : Traffic) (s : State) : (s.note t).traffic = s.traffic ++ [t] := rfl
@[simp] theorem State.note_trace (t : Traffic) (s : State) : (s.note t).trace = s.trace := rfl
@[simp] theorem State.note_faultSeen (t : Traffic) (s : State) : (s.note t).faultSeen = s.faultSeen := rfl
@[simp] theorem State.note_host (t : Traffic) (s : State) : (s.note t).host = s.host := rfl
@[simp] theorem State.note_env (t : Traffic) (s : State) : (s.note t).env = s.env := rfl

/-! ### `State.noteOk`: a note of a successful transaction (R156) -/

@[simp] theorem State.noteOk_current (msgs : List Message) (s : State) : (s.noteOk msgs).current = s.current := rfl
@[simp] theorem State.noteOk_lifecycle (msgs : List Message) (s : State) : (s.noteOk msgs).lifecycle = s.lifecycle := rfl
@[simp] theorem State.noteOk_rev (msgs : List Message) (s : State) : (s.noteOk msgs).rev = s.rev := rfl
@[simp] theorem State.noteOk_debug (msgs : List Message) (s : State) : (s.noteOk msgs).debug = s.debug := rfl
@[simp] theorem State.noteOk_busOpen (msgs : List Message) (s : State) : (s.noteOk msgs).busOpen = s.busOpen := rfl
@[simp] theorem State.noteOk_gpioOpen (msgs : List Message) (s : State) : (s.noteOk msgs).gpioOpen = s.gpioOpen := rfl
@[simp] theorem State.noteOk_errKind (msgs : List Message) (s : State) : (s.noteOk msgs).errKind = s.errKind := rfl
@[simp] theorem State.noteOk_errCode (msgs : List Message) (s : State) : (s.noteOk msgs).errCode = s.errCode := rfl
@[simp] theorem State.noteOk_temp (msgs : List Message) (s : State) : (s.noteOk msgs).temp = s.temp := rfl
@[simp] theorem State.noteOk_busIdx (msgs : List Message) (s : State) : (s.noteOk msgs).busIdx = s.busIdx := rfl
@[simp] theorem State.noteOk_gpioPin (msgs : List Message) (s : State) : (s.noteOk msgs).gpioPin = s.gpioPin := rfl
@[simp] theorem State.noteOk_handleBus (msgs : List Message) (s : State) : (s.noteOk msgs).handleBus = s.handleBus := rfl
@[simp] theorem State.noteOk_handlePin (msgs : List Message) (s : State) : (s.noteOk msgs).handlePin = s.handlePin := rfl
@[simp] theorem State.noteOk_step (msgs : List Message) (s : State) : (s.noteOk msgs).step = s.step := rfl
@[simp] theorem State.noteOk_v0 (msgs : List Message) (s : State) : (s.noteOk msgs).v0 = s.v0 := rfl
@[simp] theorem State.noteOk_v1 (msgs : List Message) (s : State) : (s.noteOk msgs).v1 = s.v1 := rfl
@[simp] theorem State.noteOk_tb0 (msgs : List Message) (s : State) : (s.noteOk msgs).tb0 = s.tb0 := rfl
@[simp] theorem State.noteOk_tb1 (msgs : List Message) (s : State) : (s.noteOk msgs).tb1 = s.tb1 := rfl
@[simp] theorem State.noteOk_lvl (msgs : List Message) (s : State) : (s.noteOk msgs).lvl = s.lvl := rfl
@[simp] theorem State.noteOk_c (msgs : List Message) (s : State) : (s.noteOk msgs).c = s.c := rfl
@[simp] theorem State.noteOk_r (msgs : List Message) (s : State) : (s.noteOk msgs).r = s.r := rfl
@[simp] theorem State.noteOk_en (msgs : List Message) (s : State) : (s.noteOk msgs).en = s.en := rfl
@[simp] theorem State.noteOk_inFlight (msgs : List Message) (s : State) : (s.noteOk msgs).inFlight = s.inFlight := rfl
@[simp] theorem State.noteOk_dev (msgs : List Message) (s : State) : (s.noteOk msgs).dev = s.dev := rfl
@[simp] theorem State.noteOk_traffic (msgs : List Message) (s : State) : (s.noteOk msgs).traffic = s.traffic ++ [.i2c s.handleBus msgs none] := rfl
@[simp] theorem State.noteOk_trace (msgs : List Message) (s : State) : (s.noteOk msgs).trace = if s.debug then s.trace ++ msgs.map Message.record else s.trace := rfl
@[simp] theorem State.noteOk_faultSeen (msgs : List Message) (s : State) : (s.noteOk msgs).faultSeen = s.faultSeen := rfl
@[simp] theorem State.noteOk_host (msgs : List Message) (s : State) : (s.noteOk msgs).host = s.host := rfl
@[simp] theorem State.noteOk_env (msgs : List Message) (s : State) : (s.noteOk msgs).env = s.env := rfl

/-! ### `State.noteFail`: a note of a failed transaction (R157) -/

@[simp] theorem State.noteFail_current (msgs : List Message) (e : OsCode) (shown : List TraceRecord) (s : State) : (s.noteFail msgs e shown).current = s.current := rfl
@[simp] theorem State.noteFail_lifecycle (msgs : List Message) (e : OsCode) (shown : List TraceRecord) (s : State) : (s.noteFail msgs e shown).lifecycle = s.lifecycle := rfl
@[simp] theorem State.noteFail_rev (msgs : List Message) (e : OsCode) (shown : List TraceRecord) (s : State) : (s.noteFail msgs e shown).rev = s.rev := rfl
@[simp] theorem State.noteFail_debug (msgs : List Message) (e : OsCode) (shown : List TraceRecord) (s : State) : (s.noteFail msgs e shown).debug = s.debug := rfl
@[simp] theorem State.noteFail_busOpen (msgs : List Message) (e : OsCode) (shown : List TraceRecord) (s : State) : (s.noteFail msgs e shown).busOpen = s.busOpen := rfl
@[simp] theorem State.noteFail_gpioOpen (msgs : List Message) (e : OsCode) (shown : List TraceRecord) (s : State) : (s.noteFail msgs e shown).gpioOpen = s.gpioOpen := rfl
@[simp] theorem State.noteFail_errKind (msgs : List Message) (e : OsCode) (shown : List TraceRecord) (s : State) : (s.noteFail msgs e shown).errKind = s.errKind := rfl
@[simp] theorem State.noteFail_errCode (msgs : List Message) (e : OsCode) (shown : List TraceRecord) (s : State) : (s.noteFail msgs e shown).errCode = s.errCode := rfl
@[simp] theorem State.noteFail_temp (msgs : List Message) (e : OsCode) (shown : List TraceRecord) (s : State) : (s.noteFail msgs e shown).temp = s.temp := rfl
@[simp] theorem State.noteFail_busIdx (msgs : List Message) (e : OsCode) (shown : List TraceRecord) (s : State) : (s.noteFail msgs e shown).busIdx = s.busIdx := rfl
@[simp] theorem State.noteFail_gpioPin (msgs : List Message) (e : OsCode) (shown : List TraceRecord) (s : State) : (s.noteFail msgs e shown).gpioPin = s.gpioPin := rfl
@[simp] theorem State.noteFail_handleBus (msgs : List Message) (e : OsCode) (shown : List TraceRecord) (s : State) : (s.noteFail msgs e shown).handleBus = s.handleBus := rfl
@[simp] theorem State.noteFail_handlePin (msgs : List Message) (e : OsCode) (shown : List TraceRecord) (s : State) : (s.noteFail msgs e shown).handlePin = s.handlePin := rfl
@[simp] theorem State.noteFail_step (msgs : List Message) (e : OsCode) (shown : List TraceRecord) (s : State) : (s.noteFail msgs e shown).step = s.step := rfl
@[simp] theorem State.noteFail_v0 (msgs : List Message) (e : OsCode) (shown : List TraceRecord) (s : State) : (s.noteFail msgs e shown).v0 = s.v0 := rfl
@[simp] theorem State.noteFail_v1 (msgs : List Message) (e : OsCode) (shown : List TraceRecord) (s : State) : (s.noteFail msgs e shown).v1 = s.v1 := rfl
@[simp] theorem State.noteFail_tb0 (msgs : List Message) (e : OsCode) (shown : List TraceRecord) (s : State) : (s.noteFail msgs e shown).tb0 = s.tb0 := rfl
@[simp] theorem State.noteFail_tb1 (msgs : List Message) (e : OsCode) (shown : List TraceRecord) (s : State) : (s.noteFail msgs e shown).tb1 = s.tb1 := rfl
@[simp] theorem State.noteFail_lvl (msgs : List Message) (e : OsCode) (shown : List TraceRecord) (s : State) : (s.noteFail msgs e shown).lvl = s.lvl := rfl
@[simp] theorem State.noteFail_c (msgs : List Message) (e : OsCode) (shown : List TraceRecord) (s : State) : (s.noteFail msgs e shown).c = s.c := rfl
@[simp] theorem State.noteFail_r (msgs : List Message) (e : OsCode) (shown : List TraceRecord) (s : State) : (s.noteFail msgs e shown).r = s.r := rfl
@[simp] theorem State.noteFail_en (msgs : List Message) (e : OsCode) (shown : List TraceRecord) (s : State) : (s.noteFail msgs e shown).en = s.en := rfl
@[simp] theorem State.noteFail_inFlight (msgs : List Message) (e : OsCode) (shown : List TraceRecord) (s : State) : (s.noteFail msgs e shown).inFlight = s.inFlight := rfl
@[simp] theorem State.noteFail_dev (msgs : List Message) (e : OsCode) (shown : List TraceRecord) (s : State) : (s.noteFail msgs e shown).dev = s.dev := rfl
@[simp] theorem State.noteFail_traffic (msgs : List Message) (e : OsCode) (shown : List TraceRecord) (s : State) : (s.noteFail msgs e shown).traffic = s.traffic ++ [.i2c s.handleBus msgs (some e)] := rfl
@[simp] theorem State.noteFail_trace (msgs : List Message) (e : OsCode) (shown : List TraceRecord) (s : State) : (s.noteFail msgs e shown).trace = if s.debug then s.trace ++ shown else s.trace := rfl
@[simp] theorem State.noteFail_faultSeen (msgs : List Message) (e : OsCode) (shown : List TraceRecord) (s : State) : (s.noteFail msgs e shown).faultSeen = s.faultSeen := rfl
@[simp] theorem State.noteFail_host (msgs : List Message) (e : OsCode) (shown : List TraceRecord) (s : State) : (s.noteFail msgs e shown).host = s.host := rfl
@[simp] theorem State.noteFail_env (msgs : List Message) (e : OsCode) (shown : List TraceRecord) (s : State) : (s.noteFail msgs e shown).env = s.env := rfl

/-! ### `State.interlude`: the environment's step before one that asks nothing (R71) -/

@[simp] theorem State.interlude_current (s : State) : (s.interlude).current = s.current := rfl
@[simp] theorem State.interlude_lifecycle (s : State) : (s.interlude).lifecycle = s.lifecycle := rfl
@[simp] theorem State.interlude_rev (s : State) : (s.interlude).rev = s.rev := rfl
@[simp] theorem State.interlude_debug (s : State) : (s.interlude).debug = s.debug := rfl
@[simp] theorem State.interlude_busOpen (s : State) : (s.interlude).busOpen = s.busOpen := rfl
@[simp] theorem State.interlude_gpioOpen (s : State) : (s.interlude).gpioOpen = s.gpioOpen := rfl
@[simp] theorem State.interlude_errKind (s : State) : (s.interlude).errKind = s.errKind := rfl
@[simp] theorem State.interlude_errCode (s : State) : (s.interlude).errCode = s.errCode := rfl
@[simp] theorem State.interlude_temp (s : State) : (s.interlude).temp = s.temp := rfl
@[simp] theorem State.interlude_busIdx (s : State) : (s.interlude).busIdx = s.busIdx := rfl
@[simp] theorem State.interlude_gpioPin (s : State) : (s.interlude).gpioPin = s.gpioPin := rfl
@[simp] theorem State.interlude_handleBus (s : State) : (s.interlude).handleBus = s.handleBus := rfl
@[simp] theorem State.interlude_handlePin (s : State) : (s.interlude).handlePin = s.handlePin := rfl
@[simp] theorem State.interlude_step (s : State) : (s.interlude).step = s.step := rfl
@[simp] theorem State.interlude_v0 (s : State) : (s.interlude).v0 = s.v0 := rfl
@[simp] theorem State.interlude_v1 (s : State) : (s.interlude).v1 = s.v1 := rfl
@[simp] theorem State.interlude_tb0 (s : State) : (s.interlude).tb0 = s.tb0 := rfl
@[simp] theorem State.interlude_tb1 (s : State) : (s.interlude).tb1 = s.tb1 := rfl
@[simp] theorem State.interlude_lvl (s : State) : (s.interlude).lvl = s.lvl := rfl
@[simp] theorem State.interlude_c (s : State) : (s.interlude).c = s.c := rfl
@[simp] theorem State.interlude_r (s : State) : (s.interlude).r = s.r := rfl
@[simp] theorem State.interlude_en (s : State) : (s.interlude).en = s.en := rfl
@[simp] theorem State.interlude_inFlight (s : State) : (s.interlude).inFlight = s.inFlight := rfl
@[simp] theorem State.interlude_dev (s : State) : (s.interlude).dev = s.dev.disturb (meanwhile s.env) := rfl
@[simp] theorem State.interlude_traffic (s : State) : (s.interlude).traffic = s.traffic := rfl
@[simp] theorem State.interlude_trace (s : State) : (s.interlude).trace = s.trace := rfl
@[simp] theorem State.interlude_faultSeen (s : State) : (s.interlude).faultSeen = s.faultSeen := rfl
@[simp] theorem State.interlude_host (s : State) : (s.interlude).host = s.host := rfl
@[simp] theorem State.interlude_env (s : State) : (s.interlude).env = afterMeanwhile s.env := rfl

/-! ### `State.opened`: a successful OPEN (R136) -/

@[simp] theorem State.opened_current (rev : BoardRev) (s : State) : (s.opened rev).current = s.current := rfl
@[simp] theorem State.opened_lifecycle (rev : BoardRev) (s : State) : (s.opened rev).lifecycle = .opened := rfl
@[simp] theorem State.opened_rev (rev : BoardRev) (s : State) : (s.opened rev).rev = rev := rfl
@[simp] theorem State.opened_debug (rev : BoardRev) (s : State) : (s.opened rev).debug = false := rfl
@[simp] theorem State.opened_busOpen (rev : BoardRev) (s : State) : (s.opened rev).busOpen = s.busOpen := rfl
@[simp] theorem State.opened_gpioOpen (rev : BoardRev) (s : State) : (s.opened rev).gpioOpen = s.gpioOpen := rfl
@[simp] theorem State.opened_errKind (rev : BoardRev) (s : State) : (s.opened rev).errKind = s.errKind := rfl
@[simp] theorem State.opened_errCode (rev : BoardRev) (s : State) : (s.opened rev).errCode = s.errCode := rfl
@[simp] theorem State.opened_temp (rev : BoardRev) (s : State) : (s.opened rev).temp = s.temp := rfl
@[simp] theorem State.opened_busIdx (rev : BoardRev) (s : State) : (s.opened rev).busIdx = s.busIdx := rfl
@[simp] theorem State.opened_gpioPin (rev : BoardRev) (s : State) : (s.opened rev).gpioPin = s.gpioPin := rfl
@[simp] theorem State.opened_handleBus (rev : BoardRev) (s : State) : (s.opened rev).handleBus = s.busIdx := rfl
@[simp] theorem State.opened_handlePin (rev : BoardRev) (s : State) : (s.opened rev).handlePin = s.gpioPin := rfl
@[simp] theorem State.opened_step (rev : BoardRev) (s : State) : (s.opened rev).step = s.step := rfl
@[simp] theorem State.opened_v0 (rev : BoardRev) (s : State) : (s.opened rev).v0 = s.v0 := rfl
@[simp] theorem State.opened_v1 (rev : BoardRev) (s : State) : (s.opened rev).v1 = s.v1 := rfl
@[simp] theorem State.opened_tb0 (rev : BoardRev) (s : State) : (s.opened rev).tb0 = s.tb0 := rfl
@[simp] theorem State.opened_tb1 (rev : BoardRev) (s : State) : (s.opened rev).tb1 = s.tb1 := rfl
@[simp] theorem State.opened_lvl (rev : BoardRev) (s : State) : (s.opened rev).lvl = s.lvl := rfl
@[simp] theorem State.opened_c (rev : BoardRev) (s : State) : (s.opened rev).c = s.c := rfl
@[simp] theorem State.opened_r (rev : BoardRev) (s : State) : (s.opened rev).r = s.r := rfl
@[simp] theorem State.opened_en (rev : BoardRev) (s : State) : (s.opened rev).en = s.en := rfl
@[simp] theorem State.opened_inFlight (rev : BoardRev) (s : State) : (s.opened rev).inFlight = s.inFlight := rfl
@[simp] theorem State.opened_dev (rev : BoardRev) (s : State) : (s.opened rev).dev = s.dev := rfl
@[simp] theorem State.opened_traffic (rev : BoardRev) (s : State) : (s.opened rev).traffic = s.traffic := rfl
@[simp] theorem State.opened_trace (rev : BoardRev) (s : State) : (s.opened rev).trace = s.trace := rfl
@[simp] theorem State.opened_faultSeen (rev : BoardRev) (s : State) : (s.opened rev).faultSeen = s.faultSeen := rfl
@[simp] theorem State.opened_host (rev : BoardRev) (s : State) : (s.opened rev).host = s.host := rfl
@[simp] theorem State.opened_env (rev : BoardRev) (s : State) : (s.opened rev).env = s.env := rfl

end Sys2Proof.Machine
end

