-- ==== Sys2Proof/Laws/Ops.lean ====
section
/-! SUPPORT. One lemma per shared operation that says everything it can do; later proofs cite these instead of unfolding
the operations. -/

namespace Sys2Proof.Machine

/-! ### Asking the environment -/

@[simp] theorem ask_nil {s : State} (h : s.env = []) (call : Call) :
    ask call s = .waits { s with inFlight := some call } := by
  simp [ask, h]

@[simp] theorem ask_silent {s : State} {ws : List (Loc × Byte)} {rest : List EnvTurn}
    (h : s.env = .silent ws :: rest) (call : Call) :
    ask call s = .waits { s with inFlight := some call, env := rest, dev := s.dev.disturb ws } := by
  simp [ask, h]

@[simp] theorem ask_answer {s : State} {a : Answer} {rest : List EnvTurn} (h : s.env = .answer a :: rest)
    (call : Call) :
    ask call s = .answered a { s with inFlight := none, env := rest, dev := s.dev.disturb a.others } := by
  simp [ask, h]

/-- Everything asking can come to: a wait that uses up no answer, or one answer used up. -/
theorem ask_cases (call : Call) (s : State) :
    (∃ ws rest, (s.env = [] ∧ ws = [] ∧ rest = [] ∨ s.env = .silent ws :: rest) ∧
      ask call s = .waits { s with inFlight := some call, env := rest, dev := s.dev.disturb ws }) ∨
    (∃ a rest, s.env = .answer a :: rest ∧
      ask call s = .answered a { s with inFlight := none, env := rest, dev := s.dev.disturb a.others }) := by
  unfold ask
  split
  · rename_i h
    exact .inl ⟨[], [], .inl ⟨h, rfl, rfl⟩, by rw [← h, Devices.disturb_nil]⟩
  · rename_i ws rest h
    exact .inl ⟨ws, rest, .inr h, rfl⟩
  · rename_i a rest h
    exact .inr ⟨a, rest, h, rfl⟩

/-! ### Where the environment acts without being asked -/

@[simp] theorem meanwhile_nil : meanwhile [] = [] := rfl
@[simp] theorem meanwhile_silent (ws : List (Loc × Byte)) (rest : List EnvTurn) :
    meanwhile (.silent ws :: rest) = ws := rfl
@[simp] theorem meanwhile_answer (a : Answer) (rest : List EnvTurn) : meanwhile (.answer a :: rest) = [] := rfl
@[simp] theorem afterMeanwhile_nil : afterMeanwhile [] = [] := rfl
@[simp] theorem afterMeanwhile_silent (ws : List (Loc × Byte)) (rest : List EnvTurn) :
    afterMeanwhile (.silent ws :: rest) = rest := rfl
@[simp] theorem afterMeanwhile_answer (a : Answer) (rest : List EnvTurn) :
    afterMeanwhile (.answer a :: rest) = .answer a :: rest := rfl

/-- Everything the environment can do where it is not asked: nothing, or one turn of writes (R71). -/
theorem State.interlude_cases (s : State) :
    ((∀ ws rest, s.env ≠ .silent ws :: rest) ∧ s.interlude = s) ∨
    (∃ ws rest, s.env = .silent ws :: rest ∧ s.interlude = { s with env := rest, dev := s.dev.disturb ws }) := by
  cases s with
  | mk =>
    rename_i turns
    match turns with
    | [] => exact .inl ⟨by simp, rfl⟩
    | .answer a :: rest => exact .inl ⟨by simp, rfl⟩
    | .silent ws :: rest => exact .inr ⟨ws, rest, rfl, rfl⟩

/-- Under `ExclusiveBus` every turn still to come spares the expanders (R72). -/
theorem State.exclusiveBus_turn {s : State} (h : s.exclusiveBus = true) {turn : EnvTurn} (ht : turn ∈ s.env) :
    turn.sparesExpanders = true :=
  List.all_eq_true.mp h turn ht

/-- Both counts CALCTL reads are ones the transport takes, whatever `MAX_READ` is (R153, U8). -/
theorem ReadLen.count_admitted (len : ReadLen) : 1 ≤ len.count ∧ len.count ≤ Config.maxRead := by
  cases len <;> simp only [ReadLen.count, Config.maxRead] <;> omega

/-! ### Steps -/

@[simp] theorem Progress.andThen_go (f : State → State) (s : State) : (Progress.go s).andThen f = .go (f s) := rfl
@[simp] theorem Progress.andThen_halt (f : State → State) (s : State) : (Progress.halt s).andThen f = .halt s := rfl

@[simp] theorem runSteps_zero (f : State → Progress) (s : State) : runSteps 0 f s = s := rfl

theorem runSteps_go {n : Nat} {f : State → Progress} {s s' : State} (h : f s = .go s') :
    runSteps (n + 1) f s = runSteps n f s' := by
  simp [runSteps, h]

theorem runSteps_halt {n : Nat} {f : State → Progress} {s s' : State} (h : f s = .halt s') :
    runSteps (n + 1) f s = s' := by
  simp [runSteps, h]

/-- Everything `MemWrite` can do: wait, succeed, or fail with the register old or new (R76, R77, R150). -/
theorem memWrite_cases (dev : DevAddr) (off val : Byte) (s : State) :
    (∃ ws rest, (s.env = [] ∧ ws = [] ∧ rest = [] ∨ s.env = .silent ws :: rest) ∧
      memWrite dev off val s = .halt { s with inFlight := some (.write dev off val), env := rest, dev := s.dev.disturb ws }) ∨
    (∃ a rest, s.env = .answer a :: rest ∧ a.ok = true ∧
      memWrite dev off val s =
        .go ({ s with
          inFlight := none
          env := rest
          dev := (s.dev.disturb a.others).write { dev := dev, off := off, idx := 0 } val }.noteOk
            (writeMessages dev off val)).advance) ∨
    (∃ a rest, s.env = .answer a :: rest ∧ a.ok = false ∧
      memWrite dev off val s =
        .halt (({ s with
          inFlight := none
          env := rest
          dev := if a.took then (s.dev.disturb a.others).write { dev := dev, off := off, idx := 0 } val
                 else s.dev.disturb a.others }.noteFail
            (writeMessages dev off val) a.code a.failTrace).raise .transportError a.code.toWord)) := by
  rcases ask_cases (.write dev off val) s with ⟨ws, rest, he, h⟩ | ⟨a, rest, he, h⟩
  · exact .inl ⟨ws, rest, he, by simp [memWrite, h]⟩
  · cases hok : a.ok with
    | true => exact .inr (.inl ⟨a, rest, he, hok, by simp [memWrite, h, hok]⟩)
    | false => exact .inr (.inr ⟨a, rest, he, hok, by simp [memWrite, h, hok]⟩)

/-- Everything `MemRead` can do: wait, deliver, or fail and deliver nothing (R76, R77, R152). -/
theorem memRead_cases (dev : DevAddr) (off : Byte) (len : ReadLen) (deliver : List Byte → State → State) (s : State) :
    (∃ ws rest, (s.env = [] ∧ ws = [] ∧ rest = [] ∨ s.env = .silent ws :: rest) ∧
      memRead dev off len deliver s = .halt { s with inFlight := some (.read dev off len), env := rest, dev := s.dev.disturb ws }) ∨
    (∃ a rest, s.env = .answer a :: rest ∧ a.ok = true ∧
      memRead dev off len deliver s =
        .go (deliver ((s.dev.disturb a.others).receive dev off len)
          ({ s with inFlight := none, env := rest, dev := s.dev.disturb a.others }.noteOk
            (readMessages dev off len ((s.dev.disturb a.others).receive dev off len)))).advance) ∨
    (∃ a rest, s.env = .answer a :: rest ∧ a.ok = false ∧
      memRead dev off len deliver s =
        .halt (({ s with inFlight := none, env := rest, dev := s.dev.disturb a.others }.noteFail
          (readMessages dev off len []) a.code a.failTrace).raise .transportError a.code.toWord)) := by
  rcases ask_cases (.read dev off len) s with ⟨ws, rest, he, h⟩ | ⟨a, rest, he, h⟩
  · exact .inl ⟨ws, rest, he, by simp [memRead, h]⟩
  · cases hok : a.ok with
    | true => exact .inr (.inl ⟨a, rest, he, hok, by simp [memRead, h, hok]⟩)
    | false => exact .inr (.inr ⟨a, rest, he, hok, by simp [memRead, h, hok]⟩)

/-- Everything `GpioWrite` can do: wait, be accepted whole, or fall short (R78, R79). -/
theorem gpioWrite_cases (bytes : List Byte) (line : EnLine) (s : State) :
    (∃ ws rest, (s.env = [] ∧ ws = [] ∧ rest = [] ∨ s.env = .silent ws :: rest) ∧
      gpioWrite bytes line s = .halt { s with inFlight := some (.gpioWrite bytes), env := rest, dev := s.dev.disturb ws }) ∨
    (∃ a rest, s.env = .answer a :: rest ∧ acceptedCount a bytes.length = some bytes.length ∧
      gpioWrite bytes line s =
        .go ({ s with inFlight := none, env := rest, dev := s.dev.disturb a.others, en := line }.note
          (.gpioWrite s.handlePin bytes (acceptedCount a bytes.length))).advance) ∨
    (∃ a rest, s.env = .answer a :: rest ∧ acceptedCount a bytes.length ≠ some bytes.length ∧
      gpioWrite bytes line s =
        .halt (({ s with inFlight := none, env := rest, dev := s.dev.disturb a.others, en := .unknown }.note
          (.gpioWrite s.handlePin bytes (acceptedCount a bytes.length))).raise .gpioWriteFailed 0#32)) := by
  rcases ask_cases (.gpioWrite bytes) s with ⟨ws, rest, he, h⟩ | ⟨a, rest, he, h⟩
  · exact .inl ⟨ws, rest, he, by simp [gpioWrite, h]⟩
  · by_cases hn : acceptedCount a bytes.length = some bytes.length
    · exact .inr (.inl ⟨a, rest, he, hn, by simp only [gpioWrite, h, if_pos hn]⟩)
    · exact .inr (.inr ⟨a, rest, he, hn, by simp only [gpioWrite, h, if_neg hn]⟩)

/-- Everything the bootstrap can do: wait, or go on with its outcome unexamined (R133). -/
theorem gpioBootstrap_cases (s : State) :
    (∃ ws rest, (s.env = [] ∧ ws = [] ∧ rest = [] ∨ s.env = .silent ws :: rest) ∧
      gpioBootstrap s = .halt { s with inFlight := some (.bootstrap s.gpioPin), env := rest, dev := s.dev.disturb ws }) ∨
    (∃ a rest, s.env = .answer a :: rest ∧
      gpioBootstrap s =
        .go ({ s with inFlight := none, env := rest, dev := s.dev.disturb a.others }.note
          (.bootstrap s.gpioPin)).advance) := by
  rcases ask_cases (.bootstrap s.gpioPin) s with ⟨ws, rest, he, h⟩ | ⟨a, rest, he, h⟩
  · exact .inl ⟨ws, rest, he, by simp [gpioBootstrap, h]⟩
  · exact .inr ⟨a, rest, he, by simp [gpioBootstrap, h]⟩

/-- Everything the bus acquisition can do (R134). -/
theorem busAcquire_cases (s : State) :
    (∃ ws rest, (s.env = [] ∧ ws = [] ∧ rest = [] ∨ s.env = .silent ws :: rest) ∧
      busAcquire s = .halt { s with inFlight := some (.busAcquire s.busIdx), env := rest, dev := s.dev.disturb ws }) ∨
    (∃ a rest, s.env = .answer a :: rest ∧ a.ok = true ∧
      busAcquire s =
        .go ({ s with inFlight := none, env := rest, dev := s.dev.disturb a.others, busOpen := true }.note
          (.busAcquire s.busIdx none)).advance) ∨
    (∃ a rest, s.env = .answer a :: rest ∧ a.ok = false ∧
      busAcquire s =
        .halt (({ s with inFlight := none, env := rest, dev := s.dev.disturb a.others }.note
          (.busAcquire s.busIdx (some a.code))).raise .busOpenFailed a.code.toWord)) := by
  rcases ask_cases (.busAcquire s.busIdx) s with ⟨ws, rest, he, h⟩ | ⟨a, rest, he, h⟩
  · exact .inl ⟨ws, rest, he, by simp [busAcquire, h]⟩
  · cases hok : a.ok with
    | true => exact .inr (.inl ⟨a, rest, he, hok, by simp [busAcquire, h, hok]⟩)
    | false => exact .inr (.inr ⟨a, rest, he, hok, by simp [busAcquire, h, hok]⟩)

/-- Everything the acquisition of the GPIO line can do; a failure has released the bus (R135). -/
theorem gpioAcquire_cases (s : State) :
    (∃ ws rest, (s.env = [] ∧ ws = [] ∧ rest = [] ∨ s.env = .silent ws :: rest) ∧
      gpioAcquire s = .halt { s with inFlight := some (.gpioAcquire s.gpioPin), env := rest, dev := s.dev.disturb ws }) ∨
    (∃ a rest, s.env = .answer a :: rest ∧ a.ok = true ∧
      gpioAcquire s =
        .go ({ s with inFlight := none, env := rest, dev := s.dev.disturb a.others, gpioOpen := true }.note
          (.gpioAcquire s.gpioPin true)).advance) ∨
    (∃ a rest, s.env = .answer a :: rest ∧ a.ok = false ∧
      gpioAcquire s =
        .halt ((({ s with inFlight := none, env := rest, dev := s.dev.disturb a.others, busOpen := false }.note
          (.gpioAcquire s.gpioPin false)).note (.busRelease s.busIdx)).raise .gpioOpenFailed 0#32)) := by
  rcases ask_cases (.gpioAcquire s.gpioPin) s with ⟨ws, rest, he, h⟩ | ⟨a, rest, he, h⟩
  · exact .inl ⟨ws, rest, he, by simp [gpioAcquire, h]⟩
  · cases hok : a.ok with
    | true => exact .inr (.inl ⟨a, rest, he, hok, by simp [gpioAcquire, h, hok]⟩)
    | false => exact .inr (.inr ⟨a, rest, he, hok, by simp [gpioAcquire, h, hok]⟩)

/-! ### The sequencer -/

theorem State.enter_idle {s : State} (h : s.current = none) (i : Instr) : s.enter i = s.start i := by
  simp [State.enter, State.busy, h]

theorem State.enter_busy {s : State} {j : Instr} (h : s.current = some j) (i : Instr) : s.enter i = s := by
  simp [State.enter, State.busy, h]

/-- A command that is not permitted ends at once (R231). -/
theorem runCommand_forbidden {i : Instr} {s : State} (h : s.lifecycle ≠ gate i) (f : State → Progress) :
    runCommand i f s = s.markFault.raise .badState 0#32 := by
  simp [runCommand, h]

/-- A permitted command runs its steps (R37). -/
theorem runCommand_permitted {i : Instr} {s : State} (h : s.lifecycle = gate i) (f : State → Progress) :
    runCommand i f s = runSteps maxSteps f (s.enter i) := by
  simp [runCommand, h]

/-- The steps of a command. -/
def commandSteps : Instr → State → Progress
  | .openDev revch => openStep revch
  | .close => closeStep
  | .enable => enableStep
  | .disable => disableStep
  | .setup => setupStep
  | .select ch => selectStep ch
  | .setPulse => modeStep true
  | .setVco => modeStep false
  | .setAtten level => setAttenStep level
  | .readTemp wb => readTempStep wb
  | .enableDebug dbg => enableDebugStep dbg

/-- Every command's meaning is its steps, run by the sequencer: no command faults and none is refused (R229). -/
theorem exec_eq (i : Instr) (s : State) : exec i s = .next (runCommand i (commandSteps i) s) := by
  cases i <;> rfl

/-- Running steps keeps a property of states on the way, and ends in a property of results, if every step does and the
fuel covers what is left by the measure `left`. -/
theorem runSteps_induct {f : State → Progress} {way result : State → Prop} (left : State → Nat)
    (hgo : ∀ s s', way s → f s = .go s' → way s' ∧ left s' < left s)
    (hhalt : ∀ s s', way s → f s = .halt s' → result s') :
    ∀ n s, way s → left s < n → result (runSteps n f s) := by
  intro n
  induction n with
  | zero => intro s _ h; omega
  | succ n ih =>
    intro s hw hl
    cases hf : f s with
    | go s' =>
      rw [runSteps_go hf]
      have := hgo s s' hw hf
      exact ih s' this.1 (by omega)
    | halt s' =>
      rw [runSteps_halt hf]
      exact hhalt s s' hw hf

end Sys2Proof.Machine
end

