-- ==== Sys2Proof/Laws/Keeps.lean ====
section
/-! SUPPORT. What no step changes: a view `π` of the state that does not look at the fields every step may change is kept
by every step of a command, but for the fields that command writes. Frames of commands follow by choosing `π`. -/

namespace Sys2Proof.Machine

/-- The state a step leads to, whether the command goes on or stops there. -/
def Progress.state : Progress → State
  | .go s => s
  | .halt s => s

@[simp] theorem Progress.state_go (s : State) : (Progress.go s).state = s := rfl
@[simp] theorem Progress.state_halt (s : State) : (Progress.halt s).state = s := rfl

/-- A preorder that every step respects relates the first state of a run to its last. -/
theorem runSteps_rel {f : State → Progress} (R : State → State → Prop) (refl : ∀ s, R s s)
    (trans : ∀ s t u, R s t → R t u → R s u) (h : ∀ s, R s (f s).state) (n : Nat) (s : State) :
    R s (runSteps n f s) := by
  induction n generalizing s with
  | zero => exact refl s
  | succ n ih =>
    have hs := h s
    cases hf : f s with
    | go s' =>
      rw [runSteps_go hf]
      rw [hf] at hs
      exact trans _ _ _ hs (ih s')
    | halt s' =>
      rw [runSteps_halt hf]
      rwa [hf] at hs

/-- The view does not look at the fields that every step may change. -/
def Blind {α : Type} (π : State → α) : Prop :=
  ∀ (s : State) (current : Option Instr) (errKind : ErrKind) (errCode : Word) (step : BitVec 3)
    (inFlight : Option Call) (dev : Devices) (traffic : List Traffic) (trace : List TraceRecord) (env : List EnvTurn),
    π { s with
      current := current, errKind := errKind, errCode := errCode, step := step, inFlight := inFlight, dev := dev,
      traffic := traffic, trace := trace, env := env } = π s

variable {α : Type} {π : State → α}

theorem memWrite_keeps (h : Blind π) (dev : DevAddr) (off val : Byte) (s : State) :
    π (memWrite dev off val s).state = π s := by
  rcases memWrite_cases dev off val s with ⟨_, _, _, he⟩ | ⟨_, _, _, _, he⟩ | ⟨_, _, _, _, he⟩ <;> rw [he] <;>
    exact h s ..

theorem memRead_keeps (h : Blind π) {deliver : List Byte → State → State} (hd : ∀ bs s, π (deliver bs s) = π s)
    (dev : DevAddr) (off : Byte) (len : ReadLen) (s : State) : π (memRead dev off len deliver s).state = π s := by
  rcases memRead_cases dev off len deliver s with ⟨_, _, _, he⟩ | ⟨_, _, _, _, he⟩ | ⟨_, _, _, _, he⟩ <;> rw [he]
  · exact h s ..
  · exact (h (deliver _ _) ..).trans ((hd ..).trans (h s ..))
  · exact h s ..

theorem finish_keeps (h : Blind π) (s : State) : π s.finish = π s := h s ..

theorem andThen_keeps {f : State → State} (hf : ∀ s, π (f s) = π s) {s : State} (p : Progress)
    (hp : π p.state = π s) : π (p.andThen f).state = π s := by
  cases p with
  | go u => exact (hf u).trans hp
  | halt u => exact hp

theorem gpioWrite_keeps (h : Blind π) (he : ∀ (s : State) (en : EnLine), π { s with en := en } = π s)
    (bytes : List Byte) (line : EnLine) (s : State) : π (gpioWrite bytes line s).state = π s := by
  rcases gpioWrite_cases bytes line s with ⟨_, _, _, e⟩ | ⟨_, _, _, _, e⟩ | ⟨_, _, _, _, e⟩ <;> rw [e]
  · exact h s ..
  · exact (h { s with en := line } ..).trans (he s _)
  · exact (h { s with en := .unknown } ..).trans (he s _)

/-- SETUP writes no register of its own. -/
theorem setupStep_keeps (h : Blind π) (s : State) : π (setupStep s).state = π s := by
  unfold setupStep
  split <;> first | exact memWrite_keeps h .. | exact finish_keeps h s

/-- SET_PULSE and SET_VCO write `V1`. -/
theorem modeStep_keeps (h : Blind π) (h1 : ∀ (s : State) (v1 : Byte), π { s with v1 := v1 } = π s)
    (pulseOn : Bool) (s : State) : π (modeStep pulseOn s).state = π s := by
  unfold modeStep
  split
  · exact memRead_keeps h (fun _ s => h1 s _) ..
  · exact memWrite_keeps h ..
  · exact finish_keeps h s

/-- SELECT writes `V0` and `V1`. -/
theorem selectStep_keeps (h : Blind π) (h0 : ∀ (s : State) (v0 : Byte), π { s with v0 := v0 } = π s)
    (h1 : ∀ (s : State) (v1 : Byte), π { s with v1 := v1 } = π s) (ch : Channel) (s : State) :
    π (selectStep ch s).state = π s := by
  have he : ∀ s, π (editChannel ch s) = π s := fun s =>
    (h1 { s with v0 := editV0 s.rev ch s.v0 } _).trans (h0 s _)
  unfold selectStep
  split
  · exact memRead_keeps h (fun _ s => h0 s _) ..
  · refine andThen_keeps (fun s => ?_) _ (memRead_keeps h (fun _ s => h1 s _) ..)
    unfold afterReads
    split
    · exact h1 s _
    · exact (h (editChannel ch s) ..).trans (he s)
  · exact andThen_keeps he _ (memWrite_keeps h ..)
  · exact memWrite_keeps h ..
  · exact memWrite_keeps h ..
  · exact finish_keeps h s

/-- SET_ATTEN writes `V0`, `LVL`, `C` and `R`. -/
theorem setAttenStep_keeps (h : Blind π)
    (h0 : ∀ (s : State) (v0 : Byte) (lvl c r : BitVec 6), π { s with v0 := v0, lvl := lvl, c := c, r := r } = π s)
    (level : Int) (s : State) : π (setAttenStep level s).state = π s := by
  unfold setAttenStep
  split
  · exact memRead_keeps h (fun _ s => h0 s ..) ..
  · exact memWrite_keeps h ..
  · exact memWrite_keeps h ..
  · exact memWrite_keeps h ..
  · exact finish_keeps h s

/-- READ_TEMP writes `TB0`, `TB1`, and `TEMP` with write-back alone. -/
theorem readTempStep_keeps (h : Blind π) (wb : Bool)
    (h0 : ∀ (s : State) (tb0 tb1 : Byte) (temp : Word), (wb = false → temp = s.temp) →
      π { s with tb0 := tb0, tb1 := tb1, temp := temp } = π s) (s : State) :
    π (readTempStep wb s).state = π s := by
  unfold readTempStep
  split
  · exact memRead_keeps h (fun _ s => h0 s _ _ _ (by rintro rfl; rfl)) ..
  · exact finish_keeps h s

/-- ENABLE writes the enable line. -/
theorem enableStep_keeps (h : Blind π) (he : ∀ (s : State) (en : EnLine), π { s with en := en } = π s) (s : State) :
    π (enableStep s).state = π s := by
  unfold enableStep
  split
  · exact gpioWrite_keeps h he ..
  · exact finish_keeps h s

/-- DISABLE writes the enable line. -/
theorem disableStep_keeps (h : Blind π) (he : ∀ (s : State) (en : EnLine), π { s with en := en } = π s) (s : State) :
    π (disableStep s).state = π s := by
  unfold disableStep
  split
  · exact gpioWrite_keeps h he ..
  · exact finish_keeps h s

/-- CLOSE writes `LIFECYCLE`, the two resource bits and the enable line. -/
theorem closeStep_keeps (h : Blind π)
    (he : ∀ (s : State) (lifecycle : Lifecycle) (busOpen gpioOpen : Bool) (en : EnLine),
      π { s with lifecycle := lifecycle, busOpen := busOpen, gpioOpen := gpioOpen, en := en } = π s) (s : State) :
    π (closeStep s).state = π s := by
  unfold closeStep
  split
  · exact (h { s with gpioOpen := false } ..).trans (he s s.lifecycle s.busOpen false s.en)
  · exact (h { s with busOpen := false } ..).trans (he s s.lifecycle false s.gpioOpen s.en)
  · exact (h { s with lifecycle := .closed, en := .unknown } ..).trans (he s .closed s.busOpen s.gpioOpen .unknown)

/-- OPEN writes the handle. -/
theorem openStep_keeps (h : Blind π)
    (he : ∀ (s : State) (lifecycle : Lifecycle) (rev : BoardRev) (debug busOpen gpioOpen : Bool)
      (handleBus handlePin : Word),
      π { s with
        lifecycle := lifecycle, rev := rev, debug := debug, busOpen := busOpen, gpioOpen := gpioOpen,
        handleBus := handleBus, handlePin := handlePin } = π s) (revch : Byte) (s : State) :
    π (openStep revch s).state = π s := by
  unfold openStep
  split
  · exact h s ..
  unfold openSteps
  split
  · rcases gpioBootstrap_cases s with ⟨_, _, _, e⟩ | ⟨_, _, _, e⟩ <;> rw [e] <;> exact h s ..
  · rcases busAcquire_cases s with ⟨_, _, _, e⟩ | ⟨_, _, _, _, e⟩ | ⟨_, _, _, _, e⟩ <;> rw [e]
    · exact h s ..
    · exact (h { s with busOpen := true } ..).trans
        (he s s.lifecycle s.rev s.debug true s.gpioOpen s.handleBus s.handlePin)
    · exact h s ..
  · rcases gpioAcquire_cases s with ⟨_, _, _, e⟩ | ⟨_, _, _, _, e⟩ | ⟨_, _, _, _, e⟩ <;> rw [e]
    · exact h s ..
    · exact (h { s with gpioOpen := true } ..).trans
        (he s s.lifecycle s.rev s.debug s.busOpen true s.handleBus s.handlePin)
    · exact (h { s with busOpen := false } ..).trans
        (he s s.lifecycle s.rev s.debug false s.gpioOpen s.handleBus s.handlePin)
  · rename_i rev _ _ _ _ _
    exact (h (s.opened rev) ..).trans (he s ..)

/-- ENABLE_DEBUG writes `DEBUG`. -/
theorem enableDebugStep_keeps (h : Blind π) (he : ∀ (s : State) (debug : Bool), π { s with debug := debug } = π s)
    (dbg : Bool) (s : State) : π (enableDebugStep dbg s).state = π s :=
  (h { s with debug := dbg } ..).trans (he s dbg)

/-- What every step of a command keeps, the command keeps; the sticky mark is written by a command that is not permitted
alone. -/
theorem exec_keeps (h : Blind π) {i : Instr} {s t : State} (he : exec i s = .next t)
    (hf : ∀ s, π (commandSteps i s).state = π s)
    (hm : s.lifecycle = gate i ∨ ∀ (s : State) (faultSeen : Bool), π { s with faultSeen := faultSeen } = π s) :
    π t = π s := by
  rw [exec_eq] at he
  simp only [Host.Outcome.next.injEq] at he
  subst he
  by_cases hl : s.lifecycle = gate i
  · rw [runCommand_permitted hl]
    refine (runSteps_rel (fun s t => π t = π s) (fun _ => rfl) (fun _ _ _ a b => b.trans a) hf maxSteps _).trans ?_
    unfold State.enter
    split
    · rfl
    · exact h s ..
  · rw [runCommand_forbidden hl]
    exact (h s.markFault ..).trans ((hm.resolve_left hl) s true)

end Sys2Proof.Machine
end

