-- ==== Sys2Proof/Laws/PerInstr.lean ====
section
/-! SUPPORT. Statements made per command. Family `Row`: a command's word is selected by the row of the opcode table that
bears its mnemonic (R96). -/

namespace Sys2Proof.Laws.Row

/-- The opcode table has a row with the command's mnemonic, and that row selects the command's word. -/
def Statement (i : Instr) : Prop :=
  ∃ row ∈ opcodeTable, row.selects (encode i) ∧ row.mnemonic = i.mnemonic

/-- A command without operands: its word is the row's value under a full mask. -/
theorem of_fixed {i : Instr} (row : OpcodeRow) (hrow : row ∈ opcodeTable) (hm : row.mask = BitVec.allOnes 32)
    (hv : encode i = row.value) (hn : row.mnemonic = i.mnemonic) : Statement i :=
  ⟨row, hrow, by rw [OpcodeRow.selects, hm, BitVec.and_allOnes, hv], hn⟩

theorem openDev (revch : Byte) : Statement (.openDev revch) := by
  refine ⟨⟨"OPEN", 0x01000000#32, 0xFFFFFF00#32⟩, by decide, ?_, rfl⟩
  revert revch
  simp only [OpcodeRow.selects]
  decide

theorem close : Statement .close :=
  of_fixed ⟨"CLOSE", 0x02000000#32, 0xFFFFFFFF#32⟩ (by decide) rfl rfl rfl

theorem enable : Statement .enable :=
  of_fixed ⟨"ENABLE", 0x03000000#32, 0xFFFFFFFF#32⟩ (by decide) rfl rfl rfl

theorem disable : Statement .disable :=
  of_fixed ⟨"DISABLE", 0x04000000#32, 0xFFFFFFFF#32⟩ (by decide) rfl rfl rfl

theorem setup : Statement .setup :=
  of_fixed ⟨"SETUP", 0x05000000#32, 0xFFFFFFFF#32⟩ (by decide) rfl rfl rfl

theorem select (ch : Channel) : Statement (.select ch) :=
  ⟨⟨"SELECT", 0x06000000#32, 0xFFFFFFFC#32⟩, by decide, by cases ch <;> (simp only [OpcodeRow.selects]; decide), rfl⟩

theorem setPulse : Statement .setPulse :=
  of_fixed ⟨"SET_PULSE", 0x07000001#32, 0xFFFFFFFF#32⟩ (by decide) rfl rfl rfl

theorem setVco : Statement .setVco :=
  of_fixed ⟨"SET_VCO", 0x07000000#32, 0xFFFFFFFF#32⟩ (by decide) rfl rfl rfl

theorem setAtten (level : Int) : Statement (.setAtten level) := by
  refine ⟨⟨"SET_ATTEN", 0x08000000#32, 0xFFFF0000#32⟩, by decide, ?_, rfl⟩
  have hm : (0xFFFF0000#32 : Word) = 0xFF#8 ++ (0xFF#8 ++ 0#16) := rfl
  have hv : (0x08000000#32 : Word) = 0x08#8 ++ (0x00#8 ++ 0#16) := rfl
  simp only [OpcodeRow.selects, encode, hm, hv]
  rw [BitVec.and_append (x₁ := 8#8), BitVec.and_append]
  simp

theorem readTemp (wb : Bool) : Statement (.readTemp wb) :=
  ⟨⟨"READ_TEMP", 0x09000000#32, 0xFFFFFFFE#32⟩, by decide, by cases wb <;> (simp only [OpcodeRow.selects]; decide), rfl⟩

theorem enableDebug (dbg : Bool) : Statement (.enableDebug dbg) :=
  ⟨⟨"ENABLE_DEBUG", 0x0A000000#32, 0xFFFFFFFE#32⟩, by decide, by cases dbg <;> (simp only [OpcodeRow.selects]; decide),
    rfl⟩

end Sys2Proof.Laws.Row
end

