-- ==== Sys2Proof/Laws/Sequencer.lean ====
section
/-! SUPPORT. How the sequencer moves: a step that goes on raises `STEP` and stays within five, so six steps always reach a
command's end or its wait, and more fuel changes nothing. -/

namespace Sys2Proof.Machine

/-- The step goes on to a later `STEP`, from a `STEP` below 5, or stops. -/
def Progress.advancesFrom (k : Nat) : Progress → Prop
  | .go s => k < s.step.toNat ∧ k < 5
  | .halt _ => True

theorem State.advance_step_toNat {s : State} (h : s.step.toNat < 5) : s.advance.step.toNat = s.step.toNat + 1 := by
  simp
  omega

theorem memWrite_advances {s : State} {k : Nat} (hk : s.step.toNat = k) (h : k < 5) (dev : DevAddr) (off val : Byte) :
    (memWrite dev off val s).advancesFrom k := by
  subst hk
  rcases memWrite_cases dev off val s with ⟨_, _, _, e⟩ | ⟨_, _, _, _, e⟩ | ⟨_, _, _, _, e⟩ <;> rw [e]
  · trivial
  · exact ⟨Nat.lt_of_lt_of_eq (Nat.lt_succ_self _) (State.advance_step_toNat h).symm, h⟩
  · trivial

theorem memRead_advances {s : State} {k : Nat} (hk : s.step.toNat = k) (h : k < 5)
    {deliver : List Byte → State → State} (hd : ∀ bs s, (deliver bs s).step = s.step)
    (dev : DevAddr) (off : Byte) (len : ReadLen) : (memRead dev off len deliver s).advancesFrom k := by
  subst hk
  rcases memRead_cases dev off len deliver s with ⟨_, _, _, e⟩ | ⟨_, _, _, _, e⟩ | ⟨_, _, _, _, e⟩ <;> rw [e]
  · trivial
  · refine ⟨?_, h⟩
    rw [State.advance_step, hd]
    exact Nat.lt_of_lt_of_eq (Nat.lt_succ_self _) (State.advance_step_toNat h).symm
  · trivial

theorem gpioWrite_advances {s : State} {k : Nat} (hk : s.step.toNat = k) (h : k < 5) (bytes : List Byte)
    (line : EnLine) : (gpioWrite bytes line s).advancesFrom k := by
  subst hk
  rcases gpioWrite_cases bytes line s with ⟨_, _, _, e⟩ | ⟨_, _, _, _, e⟩ | ⟨_, _, _, _, e⟩ <;> rw [e]
  · trivial
  · exact ⟨Nat.lt_of_lt_of_eq (Nat.lt_succ_self _) (State.advance_step_toNat h).symm, h⟩
  · trivial

theorem gpioBootstrap_advances {s : State} {k : Nat} (hk : s.step.toNat = k) (h : k < 5) :
    (gpioBootstrap s).advancesFrom k := by
  subst hk
  rcases gpioBootstrap_cases s with ⟨_, _, _, e⟩ | ⟨_, _, _, e⟩ <;> rw [e]
  · trivial
  · exact ⟨Nat.lt_of_lt_of_eq (Nat.lt_succ_self _) (State.advance_step_toNat h).symm, h⟩

theorem busAcquire_advances {s : State} {k : Nat} (hk : s.step.toNat = k) (h : k < 5) :
    (busAcquire s).advancesFrom k := by
  subst hk
  rcases busAcquire_cases s with ⟨_, _, _, e⟩ | ⟨_, _, _, _, e⟩ | ⟨_, _, _, _, e⟩ <;> rw [e]
  · trivial
  · exact ⟨Nat.lt_of_lt_of_eq (Nat.lt_succ_self _) (State.advance_step_toNat h).symm, h⟩
  · trivial

theorem gpioAcquire_advances {s : State} {k : Nat} (hk : s.step.toNat = k) (h : k < 5) :
    (gpioAcquire s).advancesFrom k := by
  subst hk
  rcases gpioAcquire_cases s with ⟨_, _, _, e⟩ | ⟨_, _, _, _, e⟩ | ⟨_, _, _, _, e⟩ <;> rw [e]
  · trivial
  · exact ⟨Nat.lt_of_lt_of_eq (Nat.lt_succ_self _) (State.advance_step_toNat h).symm, h⟩
  · trivial

/-- Local computation does not undo the advance. -/
theorem Progress.andThen_advances {p : Progress} {k : Nat} {f : State → State}
    (hf : ∀ s : State, s.step.toNat ≤ (f s).step.toNat ∨ k < (f s).step.toNat) (h : p.advancesFrom k) :
    (p.andThen f).advancesFrom k := by
  cases p with
  | halt => trivial
  | go s =>
    refine ⟨?_, h.2⟩
    rcases hf s with h1 | h1
    · exact Nat.lt_of_lt_of_le h.1 h1
    · exact h1

/-- Every step of every command that goes on raises `STEP`, from a `STEP` below 5 (R27, R28). -/
theorem commandSteps_advances (i : Instr) (s : State) : (commandSteps i s).advancesFrom s.step.toNat := by
  obtain ⟨k, hk⟩ : ∃ k, s.step.toNat = k := ⟨_, rfl⟩
  rw [hk]
  have stop : ∀ u : State, (Progress.halt u).advancesFrom k := fun _ => trivial
  cases i <;> simp only [commandSteps]
  case openDev revch =>
    unfold openStep
    split
    · exact stop _
    simp only [openSteps, hk]
    split
    · exact gpioBootstrap_advances hk (by omega)
    · exact busAcquire_advances hk (by omega)
    · exact gpioAcquire_advances hk (by omega)
    · exact stop _
  case close =>
    simp only [closeStep, hk]
    split
    · simp [gpioRelease, Progress.advancesFrom]
      omega
    · simp [busRelease, Progress.advancesFrom]
      omega
    · exact stop _
  case enable =>
    simp only [enableStep, hk]
    split
    · exact gpioWrite_advances hk (by omega) ..
    · exact stop _
  case disable =>
    simp only [disableStep, hk]
    split
    · exact gpioWrite_advances hk (by omega) ..
    · exact stop _
  case setup =>
    simp only [setupStep, hk]
    split <;> first | exact memWrite_advances hk (by omega) .. | exact stop _
  case select ch =>
    simp only [selectStep, hk]
    split
    · exact memRead_advances hk (by omega) (by intros; rfl) ..
    · refine Progress.andThen_advances (fun u => ?_) (memRead_advances hk (by omega) (by intros; rfl) ..)
      unfold afterReads
      split
      · exact .inl (Nat.le_refl _)
      · exact .inr (show (1 : Nat) < (3#3 : BitVec 3).toNat by decide)
    · exact Progress.andThen_advances (fun u => .inl (Nat.le_refl _)) (memWrite_advances hk (by omega) ..)
    · exact memWrite_advances hk (by omega) ..
    · exact memWrite_advances hk (by omega) ..
    · exact stop _
  case setPulse =>
    simp only [modeStep, hk]
    split
    · exact memRead_advances hk (by omega) (by intros; rfl) ..
    · exact memWrite_advances hk (by omega) ..
    · exact stop _
  case setVco =>
    simp only [modeStep, hk]
    split
    · exact memRead_advances hk (by omega) (by intros; rfl) ..
    · exact memWrite_advances hk (by omega) ..
    · exact stop _
  case setAtten level =>
    simp only [setAttenStep, hk]
    split
    · exact memRead_advances hk (by omega) (by intros; rfl) ..
    · exact memWrite_advances hk (by omega) ..
    · exact memWrite_advances hk (by omega) ..
    · exact memWrite_advances hk (by omega) ..
    · exact stop _
  case readTemp wb =>
    simp only [readTempStep, hk]
    split
    · exact memRead_advances hk (by omega) (by intros; rfl) ..
    · exact stop _
  case enableDebug dbg => exact stop _

/-- What is left of a command: at most five steps that go on. -/
def State.stepsLeft (s : State) : Nat := 5 - s.step.toNat

theorem commandSteps_stepsLeft {i : Instr} {s s' : State} (h : commandSteps i s = .go s') :
    s'.stepsLeft < s.stepsLeft := by
  have := commandSteps_advances i s
  rw [h] at this
  obtain ⟨h1, h2⟩ := this
  simp only [State.stepsLeft]
  omega

theorem State.stepsLeft_lt (s : State) : s.stepsLeft < maxSteps := by
  simp only [State.stepsLeft, maxSteps]
  omega

/-- Fuel beyond what is left changes nothing. -/
theorem runSteps_fuel {i : Instr} {n m : Nat} {s : State} (h : s.stepsLeft < n) (hm : n ≤ m) :
    runSteps m (commandSteps i) s = runSteps n (commandSteps i) s := by
  induction n generalizing m s with
  | zero => omega
  | succ n ih =>
    obtain ⟨m, rfl⟩ : ∃ k, m = k + 1 := ⟨m - 1, by omega⟩
    cases hf : commandSteps i s with
    | halt s' => rw [runSteps_halt hf, runSteps_halt hf]
    | go s' =>
      rw [runSteps_go hf, runSteps_go hf]
      have := commandSteps_stepsLeft hf
      exact ih (by omega) (by omega)

/-- A run of a command's steps: what holds at its start and is kept by every step that goes on leads to what every step
that stops leads to. -/
theorem runSteps_commandSteps {i : Instr} {way result : State → Prop}
    (hgo : ∀ s s', way s → commandSteps i s = .go s' → way s')
    (hhalt : ∀ s s', way s → commandSteps i s = .halt s' → result s') {s : State} (h : way s) :
    result (runSteps maxSteps (commandSteps i) s) :=
  runSteps_induct State.stepsLeft (fun s s' hw hf => ⟨hgo s s' hw hf, commandSteps_stepsLeft hf⟩) hhalt maxSteps s h
    s.stepsLeft_lt

end Sys2Proof.Machine
end

