-- ==== Sys2Proof/Laws/Step.lean ====
section
/-! SUPPORT. Everything one step of the machine can do, said once: reset, run a command, refuse a word, or take a host write
that starts no command. -/

namespace Sys2Proof.Machine

/-- A host write while `BUSY = 0` (R30, R36, R37). -/
theorem hostWrite_cases {r : HostReg} {w : Word} {s t : State} (h : hostWrite r w s = .next t) :
    (∃ i, r = .cmd ∧ decode w = .ok i ∧ exec i s = .next t) ∨
    (r = .cmd ∧ (∃ e, decode w = .error e) ∧ t = illegalCommand s) ∨
    (r ≠ .cmd ∧ ∃ busIdx gpioPin, t = { s with busIdx := busIdx, gpioPin := gpioPin }) := by
  cases r with
  | cmd =>
    simp only [hostWrite, writeCmd] at h
    split at h
    · rename_i i hd
      exact .inl ⟨i, rfl, hd, h⟩
    · rename_i e hd
      exact .inr (.inl ⟨rfl, ⟨e, hd⟩, (Host.Outcome.next.inj h).symm⟩)
  | status | errCode | temp | busIdx | gpioPin =>
    exact .inr (.inr ⟨by decide, _, _, (Host.Outcome.next.inj h).symm⟩)

/-- The sequencer's turn is its command's execution (R21). -/
theorem sequencerTurn_next {i : Instr} {s t : State} (h : sequencerTurn i s = .next t) : exec i s = .next t := by
  simp only [sequencerTurn] at h
  split at h
  · cases h
  · exact h

/-- Everything a step that answers a next state can be (R250, R37, R97, R30, R36). -/
theorem step_cases {s t : State} (h : step s = .next t) :
    (∃ took rest, s.host = .reset took :: rest ∧ t = resetEvent took { s with host := rest }) ∨
    (∃ i rest, s.runs i ∧ exec i { s with host := rest } = .next t) ∨
    (∃ rest, s.current = none ∧ t = illegalCommand { s with host := rest }) ∨
    (∃ busIdx gpioPin rest, t = { s with busIdx := busIdx, gpioPin := gpioPin, host := rest }) := by
  have written : ∀ r w rest, s.current = none →
      (s.host = .write r w :: rest ∨ s.host = .hastyWrite r w :: rest) →
      hostWrite r w { s with host := rest } = .next t →
      (∃ i rest, s.runs i ∧ exec i { s with host := rest } = .next t) ∨
      (∃ rest, s.current = none ∧ t = illegalCommand { s with host := rest }) ∨
      (∃ busIdx gpioPin rest, t = { s with busIdx := busIdx, gpioPin := gpioPin, host := rest }) := by
    intro r w rest hc hh hw
    rcases hostWrite_cases hw with ⟨i, rfl, hd, he⟩ | ⟨-, -, rfl⟩ | ⟨-, busIdx, gpioPin, rfl⟩
    · exact .inl ⟨i, rest, .inr ⟨hc, w, rest, hd, hh⟩, he⟩
    · exact .inr (.inl ⟨rest, hc, rfl⟩)
    · exact .inr (.inr ⟨busIdx, gpioPin, rest, rfl⟩)
  simp only [step, machineTurn] at h
  split at h
  · rename_i took rest hh
    exact .inl ⟨took, rest, hh, (Host.Outcome.next.inj h).symm⟩
  · exact .inr (.inr (.inr ⟨s.busIdx, s.gpioPin, s.host, (Host.Outcome.next.inj h).symm⟩))
  · rename_i r w rest hc hh
    exact .inr (written r w rest hc (.inl hh) h)
  · rename_i r w rest hc hh
    exact .inr (written r w rest hc (.inr hh) h)
  · split at h
    · cases h
    · exact .inr (.inr (.inr ⟨s.busIdx, s.gpioPin, _, (Host.Outcome.next.inj h).symm⟩))
  · rename_i i _ _ _ hc _
    exact .inr (.inl ⟨i, s.host, .inl hc, sequencerTurn_next h⟩)
  · rename_i i hc _
    exact .inr (.inl ⟨i, s.host, .inl hc, sequencerTurn_next h⟩)

end Sys2Proof.Machine
end

