-- ==== Sys2Proof/Tests/Slice0.lean ====
section
/-! SUPPORT. The modeller's own tests, expected results from spec/30_encoding.md and the vectors of
spec/95_test_vectors.md, and for every statement with hypotheses a state and operands that meet them. -/

namespace Sys2Proof.Machine.Test

/-! ### Small states -/

/-- An answer: success or failure with OS code 6, `took` for a failed write, five bytes accepted. -/
def answer (ok took : Bool) : Answer :=
  { others := [], ok := ok, code := ⟨5⟩, took := took, accepted := some 5, failTrace := [] }

/-- A transaction that succeeds, with no other master about. -/
def good : EnvTurn := .answer (answer true false)

/-- A transaction that fails; a failed write changed nothing, or took effect. -/
def bad (took : Bool) : EnvTurn := .answer (answer false took)

/-- A transaction that succeeds or fails while the sensor changes and nothing is written to an expander (R72, R73). -/
def sensing (ok took : Bool) : Answer := { answer ok took with others := [(Loc.temp0, 0x15#8)] }

/-- Another master writes `OUT1` in a turn without an answer. -/
def meddling : EnvTurn := .silent [(Loc.out1, 0x55#8)]

/-- `GpioWrite` accepts this many bytes. -/
def accepts (n : Option Nat) : EnvTurn := .answer { answer true false with accepted := n }

/-- The devices with these bytes in `OUT0` and `OUT1`. -/
def outs (a b : Byte) : Devices :=
  { mem := (Memory.set [] Loc.out0.key a).set Loc.out1.key b, att := 0#6, everLatched := false }

/-- An opened handle of a revision, these devices, these turns to come. -/
def opened (rev : BoardRev) (dev : Devices) (env : List EnvTurn) : State :=
  { State.reset with
    lifecycle := .opened, rev := rev, busOpen := true, gpioOpen := true, dev := dev, env := env, handlePin := 49#32 }

/-- A fresh machine with `BUSIDX = 2`, `GPIOPIN = 49`. -/
def fresh (env : List EnvTurn) : State := { State.reset with busIdx := 2#32, gpioPin := 49#32, env := env }

/-- An opened handle whose ENABLE waits for the platform. -/
def waiting (env : List EnvTurn) : State :=
  { opened .d (outs 0 0) env with current := some .enable, inFlight := some (.gpioWrite Config.literalHigh) }

/-- The state a command leads to. -/
def after (i : Instr) (s : State) : State := nextOr s (exec i s)

/-! ### Well-formedness -/

theorem test_level_top_is_wf : (Instr.setAtten 32767).wf = true := by decide
theorem test_level_above_is_refused : (Instr.setAtten 32768).wf = false := by decide
theorem test_level_bottom_is_wf : (Instr.setAtten (-32768)).wf = true := by decide
theorem test_level_below_is_refused : (Instr.setAtten (-32769)).wf = false := by decide

/-! ### Decoding: words written out from R91 and R96 -/

theorem test_decode_open : decode (0x01#8 ++ 0#16 ++ 0x44#8) = .ok (.openDev 0x44#8) := by decide
theorem test_decode_close : decode (0x02#8 ++ 0#24) = .ok .close := by decide
theorem test_decode_enable : decode (0x03#8 ++ 0#24) = .ok .enable := by decide
theorem test_decode_disable : decode (0x04#8 ++ 0#24) = .ok .disable := by decide
theorem test_decode_setup : decode (0x05#8 ++ 0#24) = .ok .setup := by decide
theorem test_decode_select : decode (0x06#8 ++ 0#22 ++ 0b01#2) = .ok (.select .fiber0) := by decide
theorem test_decode_select_none : decode (0x06#8 ++ 0#22 ++ 0b11#2) = .ok (.select .none) := by decide
theorem test_decode_setPulse : decode (0x07#8 ++ 0#23 ++ 0b1#1) = .ok .setPulse := by decide
theorem test_decode_setVco : decode (0x07#8 ++ 0#23 ++ 0b0#1) = .ok .setVco := by decide
theorem test_decode_setAtten : decode (0x08#8 ++ 0#8 ++ 0x8000#16) = .ok (.setAtten (-32768)) := by decide
theorem test_decode_readTemp : decode (0x09#8 ++ 0#23 ++ 0b1#1) = .ok (.readTemp true) := by decide
theorem test_decode_enableDebug : decode (0x0A#8 ++ 0#23 ++ 0b1#1) = .ok (.enableDebug true) := by decide
theorem test_reject_zero : decode 0x00000000#32 = .error .unknownOpcode := by decide
theorem test_reject_0B : decode 0x0B000000#32 = .error .unknownOpcode := by decide
theorem test_reject_select_bit2 : decode 0x06000004#32 = .error .reservedBits := by decide
theorem test_reject_setup_bit0 : decode 0x05000001#32 = .error .reservedBits := by decide
theorem test_reject_mode_bit1 : decode 0x07000002#32 = .error .reservedBits := by decide
theorem test_reject_atten_bit16 : decode 0x08010000#32 = .error .reservedBits := by decide
theorem test_reject_open_bit8 : decode 0x01000164#32 = .error .reservedBits := by decide
theorem test_table_word : decodeTableWord 32 0x08000014 = some (.setAtten 20) := by decide
theorem test_table_word_reject : decodeTableWord 32 0x0B000000 = none := by decide

/-! ### Reset and the first command -/

theorem test_reset_status : State.reset.status = 0#32 := by decide
theorem test_reset_memory_wf : State.reset.dev.mem.wf := by decide

/-- R37: OPEN written to `CMD` of a fresh machine starts, and waits for its first answer. -/
theorem test_placed_open_starts :
    (nextOr State.reset (step (State.reset.withFetchWord 32 0x01000064))).current = some (.openDev 0x64#8) := by decide

/-- Vector: SETUP in Unopened is BadState, `STATUS = 0x700`. -/
theorem test_placed_setup_is_bad_state :
    (nextOr State.reset (step (State.reset.withFetchWord 32 0x05000000))).status = 0x700#32 := by decide

/-- Vector: the all-zero word is IllegalCommand, `STATUS = 0x600`. -/
theorem test_placed_zero_is_illegal :
    (nextOr State.reset (step (State.reset.withFetchWord 32 0))).status = 0x600#32 := by decide

/-! ### The commands, on the vectors of spec/95_test_vectors.md -/

theorem test_open_e_status : (after (.openDev 0#8) (fresh [good, good, good])).status = 0x6A#32 := by decide
theorem test_open_gpio_failure :
    (after (.openDev 0x64#8) (fresh [good, good, bad false])).status = 0x300#32 := by decide
theorem test_close_status :
    (after .close { opened .e (outs 0 0) [] with debug := true, en := .high }).status = 0x1C#32 := by decide
/-- R71: another master may write between CLOSE's two releases. -/
theorem test_close_between_releases :
    let t := after .close (opened .d (outs 0 0) [.silent [], meddling])
    (t.status, t.dev.read Loc.out1, t.env) = (0x04#32, 0x55#8, []) := by decide
theorem test_enable_line : (after .enable (opened .d (outs 0 0) [accepts (some 5)])).en = .high := by decide
theorem test_enable_short :
    (after .enable { opened .d (outs 0 0) [accepts (some 4)] with en := .low }).status = 0x562#32 := by decide
theorem test_disable_line : (after .disable (opened .d (outs 0 0) [accepts (some 4)])).en = .low := by decide
theorem test_disable_short :
    (after .disable { opened .d (outs 0 0) [accepts (some 3)] with en := .high }).en = .unknown := by decide
theorem test_debug_on : (after (.enableDebug true) (opened .d (outs 0 0) [])).status = 0x72#32 := by decide
theorem test_setup_failure :
    let t := after .setup (opened .d (outs 0xA5 0x5A) [good, good, bad false])
    (t.status, t.errCode, t.dev.read Loc.out0, t.dev.read Loc.out1, t.traffic.length) =
      (0x462#32, 6#32, 0x00#8, 0x5A#8, 3) := by decide
theorem test_set_pulse :
    (after .setPulse (opened .d (outs 0 0x2B) [good, good])).dev.read Loc.out1 = 0x63#8 := by decide
theorem test_set_vco :
    (after .setVco (opened .d (outs 0 0x4C) [good, good])).dev.read Loc.out1 = 0x0C#8 := by decide
theorem test_select_d_fiber1 :
    let t := after (.select .fiber1) (opened .d (outs 0xA5 0x53) [good, good, good, good])
    (t.dev.read Loc.out0, t.dev.read Loc.out1) = (0xA7#8, 0x73#8) := by decide
theorem test_select_e_fiber0 :
    let t := after (.select .fiber0) (opened .e (outs 0xA5 0x53) [good, good, good, good, good])
    (t.dev.read Loc.out0, t.dev.read Loc.out1) = (0xA7#8, 0x0B#8) := by decide
theorem test_set_atten_20 :
    let t := after (.setAtten 20) (opened .d (outs 0x02 0) [good, good, good, good])
    (t.dev.read Loc.out0, t.dev.att, t.dev.everLatched) = (0xD6#8, 53#6, true) := by decide
theorem test_set_atten_clamps :
    (after (.setAtten (-1)) (opened .d (outs 0 0) [good, good, good, good])).dev.att = 63#6 := by decide

/-- Source example S4: bytes 0x15, 0x00 are -176 degrees. -/
theorem test_read_temp_negative :
    (after (.readTemp true) (opened .d { mem := [(Loc.temp0.key, 0x15#8)], att := 0#6, everLatched := false } [good])).temp =
      0xFFFFF500#32 := by decide
theorem test_read_temp_without_write_back :
    (after (.readTemp false) { opened .d { mem := [(Loc.temp0.key, 0x15#8)], att := 0#6, everLatched := false } [good]
      with temp := 7#32 }).temp = 7#32 := by decide

/-- Source example S3. -/
theorem test_decode_temp : decodeTemp 0x05#8 0x80#8 = 0x00000580#32 := by decide

/-! ### Witnesses: command words and steps -/

theorem witness_DecodeUndoesEncode : (Instr.setAtten (-32768)).wf = true ∧ (Instr.setAtten 32767).wf = true := by decide
theorem witness_EncodeUndoesDecode : decode 0x06000003#32 = .ok (.select .none) := by decide
theorem witness_DecodeFollowsOpcodeTable :
    decode 0x0A000001#32 = .ok (.enableDebug true) ∧ decode 0x0A000002#32 = .error .reservedBits := by decide
theorem witness_WrittenCommandIsExecuted :
    let s := { opened .d (outs 0 0) [good, good] with host := [.write .cmd 0x07000001#32] }
    s.current = none ∧ decode 0x07000001#32 = .ok .setPulse ∧ s.host = [.write .cmd 0x07000001#32] := by decide
theorem witness_IllegalWord :
    let s := { State.reset with host := [.hastyWrite .cmd 0x0B000000#32] }
    s.current = none ∧ s.host = [.hastyWrite .cmd 0x0B000000#32] ∧
      ∀ row ∈ opcodeTable, ¬row.selects 0x0B000000#32 := by
  simp only [OpcodeRow.selects]
  decide
theorem witness_WaitingCommandGoesOn :
    (waiting [good]).current = some .enable ∧ (waiting [good]).env = [good] ∧ (waiting [good]).host = [] := by decide
theorem witness_UnansweredCallIsStuck :
    (waiting []).current = some .enable ∧ (waiting []).env = [] ∧ (waiting []).host = [] := by decide
theorem witness_WriteWhileBusyIsRefused :
    let s := { waiting [good] with host := [.hastyWrite .busIdx 3#32] }
    s.current ≠ none ∧ s.host = [.hastyWrite .busIdx 3#32] := by decide
theorem witness_IdleMachineStaysIdle : State.reset.current = none ∧ State.reset.host = [] := by decide
theorem witness_HostWrites (r : HostReg) :
    let s := { State.reset with host := [.write r 3#32] }
    s.current = none ∧ s.host = [.write r 3#32] := by
  exact ⟨rfl, rfl⟩
theorem witness_HostWritesHastily (r : HostReg) :
    let s := { State.reset with host := [.hastyWrite r 3#32] }
    let u := { waiting [good] with host := [.hastyWrite r 3#32] }
    (s.current = none ∧ s.host = [.hastyWrite r 3#32]) ∧ u.current ≠ none ∧ u.host = [.hastyWrite r 3#32] := by
  exact ⟨⟨rfl, rfl⟩, by simp [waiting], rfl⟩
theorem witness_ResetEvent :
    let s := { waiting [good] with host := [.reset true] }
    s.host = [.reset true] ∧ ∀ dev off val, s.inFlight ≠ some (.write dev off val) := by
  refine ⟨rfl, fun dev off val => ?_⟩
  simp [waiting]
theorem witness_ResetMayCutAWriteShort (took : Bool) :
    let s := { opened .d (outs 0 0) [] with
      current := some .setup, inFlight := some (.write 0x38#7 0x01#8 0x00#8), host := [.reset took] }
    s.inFlight = some (.write 0x38#7 0x01#8 0x00#8) ∧ s.host = [.reset took] :=
  ⟨rfl, rfl⟩
theorem witness_ResetMayCutALatchingWriteShort (took : Bool) :
    let s := { opened .d (outs 0 0) [] with
      current := some (.setAtten 20), inFlight := some (.write 0x38#7 0x01#8 0xD5#8), host := [.reset took] }
    s.inFlight = some (.write 0x38#7 0x01#8 0xD5#8) ∧ s.host = [.reset took] :=
  ⟨rfl, rfl⟩

/-! ### Witnesses: lifecycle and errors -/

theorem witness_ForbiddenOpen :
    (opened .d (outs 0 0) []).current = none ∧ (opened .d (outs 0 0) []).lifecycle ≠ .unopened := by decide
theorem witness_ForbiddenCommand :
    State.reset.current = none ∧ State.reset.lifecycle ≠ .opened ∧ ∀ revch, Instr.close ≠ .openDev revch := by
  refine ⟨rfl, by decide, by simp⟩
theorem witness_PermittedCommand :
    (opened .d (outs 0 0) []).current = none ∧ (opened .d (outs 0 0) []).lifecycle = .opened ∧
      State.reset.lifecycle = .unopened := by decide
theorem witness_LifecycleOpens :
    (after (.openDev 0x64#8) (fresh [good, good, good])).lifecycle = .opened := by decide
theorem witness_LifecycleCloses : (after .close (opened .d (outs 0 0) [])).lifecycle = .closed := by decide
theorem witness_LifecycleStep :
    let s := { fresh [good, good, good] with host := [.write .cmd 0x01000064#32] }
    (∀ took rest, s.host ≠ .reset took :: rest) ∧ s.runs (.openDev 0x64#8) ∧
      ∃ t, step s = .next t ∧ t.lifecycle = .opened := by
  refine ⟨by simp, .inr ⟨rfl, _, _, by decide, .inl rfl⟩, ?_⟩
  exact ⟨_, rfl, by decide⟩
theorem witness_LifecycleStepCloses :
    let s := { opened .d (outs 0 0) [] with host := [.hastyWrite .cmd 0x02000000#32] }
    (∀ took rest, s.host ≠ .reset took :: rest) ∧ s.runs .close ∧ ∃ t, step s = .next t ∧ t.lifecycle = .closed := by
  refine ⟨by simp, .inr ⟨rfl, _, _, by decide, .inr rfl⟩, ?_⟩
  exact ⟨_, rfl, by decide⟩
theorem witness_FaultMarkIsSticky :
    let s := State.reset.withFetchWord 32 0
    (∀ took rest, s.host ≠ .reset took :: rest) ∧ ∃ t, step s = .next t ∧ t.faultSeen = true := by
  refine ⟨by simp [State.withFetchWord, placeCommand], ?_⟩
  exact ⟨_, rfl, by decide⟩

/-! ### Witnesses: OPEN and CLOSE -/

theorem witness_OpenRejects :
    (fresh []).readyFor (.openDev 0x78#8) ∧ (0x78#8 : Byte) ∉ [0x00#8, 0x44#8, 0x45#8, 0x64#8, 0x65#8] := by decide
theorem witness_OpenBusFailure :
    (fresh [good, bad false]).readyFor (.openDev 0x64#8) ∧
      (fresh [good, bad false]).env = [.answer (answer true false), .answer (answer false false)] := by decide
theorem witness_OpenGpioFailure :
    (fresh [good, good, bad false]).readyFor (.openDev 0x00#8) ∧
      (fresh [good, good, bad false]).env =
        [.answer (answer true false), .answer (answer true false), .answer (answer false false)] := by decide
theorem witness_OpenRecords :
    (fresh [good, good, good]).readyFor (.openDev 0x65#8) ∧ (0x65#8 : Byte) ∈ [0x00#8, 0x45#8, 0x65#8] ∧
      (fresh [good, good, good]).env = [good, good, good] := by decide

/-- The invariant holds of a machine just opened, as it does after reset. -/
theorem witness_opened_consistent (env : List EnvTurn) (host : List HostAction) :
    State.Consistent { opened .d (outs 0 0) env with host := host } :=
  ⟨(by decide : (outs 0 0).mem.wf), by simp [State.errorsMatch, opened, State.reset], fun _ => ⟨rfl, rfl⟩, fun _ => .inl ⟨rfl, rfl, rfl⟩,
    fun i h => by simp [opened, State.reset] at h⟩

theorem witness_fresh_consistent (env : List EnvTurn) : (fresh env).Consistent :=
  ⟨(by decide : State.reset.dev.mem.wf), by simp [State.errorsMatch, fresh, State.reset], fun _ => ⟨rfl, rfl⟩,
    fun _ => .inr ⟨by simp [fresh, State.reset], rfl, rfl⟩, fun i h => by simp [fresh, State.reset] at h⟩

/-- ENABLE waiting meets the invariant's clause for a busy machine. -/
theorem witness_waiting_consistent (env : List EnvTurn) : (waiting env).Consistent :=
  ⟨(by decide : (outs 0 0).mem.wf), by simp [State.errorsMatch, waiting, opened, State.reset], fun h => by simp [waiting] at h,
    fun h => by simp [waiting] at h, fun i h => by
      simp only [waiting, Option.some.injEq] at h
      subst h
      exact ⟨rfl, by simp [waiting], rfl, by simp [mayWaitAt, waiting, opened, State.reset], rfl, rfl⟩⟩

theorem witness_OpenIsAllOrNothing :
    let s := fresh [good, good, bad false]
    s.Consistent ∧ s.lifecycle = .unopened ∧ s.current = none ∧
      (after (.openDev 0x64#8) s).current = none ∧ (after (.openDev 0x64#8) s).errKind ≠ .noError :=
  ⟨witness_fresh_consistent _, by decide⟩
theorem witness_Close :
    (opened .d (outs 0 0) [good]).readyFor .close ∧ ∀ ws rest, (opened .d (outs 0 0) [good]).env ≠ .silent ws :: rest := by
  refine ⟨by decide, by simp [opened, good]⟩
theorem witness_CloseDisturbedOnce :
    (opened .d (outs 0 0) [meddling, good]).readyFor .close ∧
      (opened .d (outs 0 0) [meddling, good]).env = .silent [(Loc.out1, 0x55#8)] :: [good] ∧
      ∀ vs later, [good] ≠ .silent vs :: later := by
  refine ⟨by decide, by decide, by simp [good]⟩
theorem witness_CloseDisturbedTwice :
    (opened .d (outs 0 0) [.silent [], meddling]).readyFor .close ∧
      (opened .d (outs 0 0) [.silent [], meddling]).env = .silent [] :: .silent [(Loc.out1, 0x55#8)] :: [] := by decide

/-! ### Witnesses: ENABLE, DISABLE, ENABLE_DEBUG -/

theorem witness_EnableHigh :
    (opened .d (outs 0 0) [good]).readyFor .enable ∧ acceptedCount (answer true false) 5 = some 5 := by decide
theorem witness_EnableShort :
    acceptedCount { answer true false with accepted := some 4 } 5 ≠ some 5 ∧
      acceptedCount { answer true false with accepted := none } 5 ≠ some 5 := by decide
theorem witness_DisableLow :
    (opened .d (outs 0 0) [good]).readyFor .disable ∧ acceptedCount (answer true false) 4 = some 4 := by decide
theorem witness_DisableShort : acceptedCount { answer true false with accepted := some 3 } 4 ≠ some 4 := by decide
theorem witness_EnableDebug : (opened .d (outs 0 0) []).readyFor (.enableDebug true) := by decide

/-! ### Witnesses: the engine commands -/

theorem witness_Setup :
    (opened .d (outs 0xA5 0x5A) [good, good, good, good]).readyFor .setup ∧
      (opened .d (outs 0xA5 0x5A) [good, good, good, good]).dev.mem.wf ∧
      (opened .d (outs 0xA5 0x5A) [good, good, good, good]).env = [good, good, good, good] ∧
      (answer true false).ok = true ∧ (EnvTurn.answer (answer true false)).sparesExpanders = true := by decide

/-- `ExclusiveBus` lets the sensor change and shuts another master's write to an expander out (R72, R73). -/
theorem witness_ExclusiveBus :
    (sensing true false).ok = true ∧ (sensing true false).others ≠ [] ∧
      (EnvTurn.answer (sensing true false)).sparesExpanders = true ∧
      (EnvTurn.answer (sensing false true)).sparesExpanders = true ∧ meddling.sparesExpanders = false ∧
      (opened .d (outs 0 0) [.answer (sensing true false)]).exclusiveBus = true := by decide
theorem witness_SetupWhileSensing :
    let s := opened .d (outs 0xA5 0x5A) (List.replicate 4 (.answer (sensing true false)))
    s.dev.mem.wf ∧ s.readyFor .setup ∧
      s.env = [.answer (sensing true false), .answer (sensing true false), .answer (sensing true false),
        .answer (sensing true false)] := by decide
theorem witness_Modes :
    (opened .d (outs 0 0x2B) [good, good]).readyFor .setPulse ∧ (opened .d (outs 0 0x2B) [good, good]).readyFor .setVco ∧
      (opened .d (outs 0 0x2B) [good, good]).env = [good, good] ∧ (answer true false).ok = true := by decide
theorem witness_SelectD :
    let s := opened .d (outs 0xA5 0x53) [good, good, good, good]
    s.readyFor (.select .fiber1) ∧ s.rev = .d ∧ s.env = [good, good, good, good] := by decide
theorem witness_SelectE :
    let s := opened .e (outs 0xA5 0x53) [good, good, good, good, good]
    s.readyFor (.select .fiber0) ∧ s.rev = .e ∧ s.env = [good, good, good, good, good] := by decide

/-- A SELECT that fails after `n` transactions, for each clause of the table. -/
def failing (rev : BoardRev) (n : Nat) (took : Bool) : State :=
  opened rev (outs 0xA5 0x53) ((List.replicate n (sensing true false)).map .answer ++ [.answer (sensing false took)])

theorem witness_FailedSelect :
    ∀ rev ∈ [BoardRev.d, .e], ∀ n ∈ [0, 1, 2, 3, 4], ∀ took ∈ [false, true],
      (failing rev n took).dev.mem.wf ∧ (failing rev n took).readyFor (.select .fiber0) ∧
      (failing rev n took).env =
        (List.replicate n (sensing true false)).map .answer ++ .answer (sensing false took) :: [] ∧
      (∀ a ∈ List.replicate n (sensing true false),
        a.ok = true ∧ (EnvTurn.answer a).sparesExpanders = true) ∧
      (sensing false took).ok = false ∧ (EnvTurn.answer (sensing false took)).sparesExpanders = true ∧
      (List.replicate n (sensing true false)).length = n := by decide

theorem witness_SetAtten :
    let s := opened .d (outs 0x02 0) [good, good, good, good]
    s.dev.mem.wf ∧ s.readyFor (.setAtten 20) ∧ s.env = [good, good, good, good] ∧
      (answer true false).ok = true ∧ (EnvTurn.answer (answer true false)).sparesExpanders = true := by decide
theorem witness_FailedSetAtten :
    ∀ n ∈ [0, 1, 2, 3], ∀ took ∈ [false, true],
      (failing .d n took).dev.mem.wf ∧ (failing .d n took).readyFor (.setAtten 20) ∧
      (failing .d n took).env =
        (List.replicate n (sensing true false)).map .answer ++ .answer (sensing false took) :: [] := by decide
theorem witness_ReadTemp :
    (opened .d (outs 0 0) [good]).readyFor (.readTemp true) ∧ (answer true false).ok = true := by decide
theorem witness_FailedReadTemp :
    (opened .d (outs 0 0) [bad false]).readyFor (.readTemp true) ∧ (answer false false).ok = false := by decide
theorem witness_FailedTransaction :
    (opened .d (outs 0 0) [bad true]).env = [.answer (answer false true)] ∧ (answer false true).ok = false := by decide
theorem witness_EngineStops :
    isEngine .setup = true ∧ (failing .d 3 false).readyFor .setup ∧ 3 < transportCalls .d .setup ∧
      (failing .d 3 false).env =
        (List.replicate 3 (sensing true false)).map .answer ++ .answer (sensing false false) :: [] := by decide
theorem witness_FailedSetup :
    ∀ n ∈ [0, 1, 2, 3], ∀ took ∈ [false, true],
      (failing .d n took).dev.mem.wf ∧ (failing .d n took).readyFor .setup ∧ n < 4 ∧
      (failing .d n took).env =
        (List.replicate n (sensing true false)).map .answer ++ .answer (sensing false took) :: [] := by decide
theorem witness_FailedModes :
    ∀ pulseOn ∈ [false, true], ∀ n ∈ [0, 1], ∀ took ∈ [false, true],
      (failing .e n took).dev.mem.wf ∧ (failing .e n took).readyFor (if pulseOn then .setPulse else .setVco) ∧
      (failing .e n took).env =
        (List.replicate n (sensing true false)).map .answer ++ .answer (sensing false took) :: [] := by decide
theorem witness_EngineIssues :
    isEngine (.select .none) = true ∧
      (opened .e (outs 0 0) [good, good, good, good, good]).readyFor (.select .none) ∧
      (List.replicate 5 (answer true false)).length = transportCalls .e (.select .none) ∧
      (opened .e (outs 0 0) [good, good, good, good, good]).env =
        (List.replicate 5 (answer true false)).map .answer ++ [] := by decide

theorem witness_EngineReturns :
    isEngine .setPulse = true ∧ (opened .d (outs 0 0x20) [good, bad false]).readyFor .setPulse ∧
      (after .setPulse (opened .d (outs 0 0x20) [good, bad false])).current = none ∧
      (after .setPulse (opened .d (outs 0 0x20) [good, bad false])).returnValue = some (-6) := by decide

/-! ### Witnesses: waiting, the trace, frames -/

theorem witness_CommandWaits :
    (fresh [.silent []]).readyFor (.openDev 0x64#8) ∧
      firstCall (fresh [.silent []]) (.openDev 0x64#8) = some (.bootstrap 49#32) ∧ (fresh []).env = [] ∧
      (fresh [.silent []]).env = [.silent []] ∧
      (fresh [meddling]).env = .silent [(Loc.out1, 0x55#8)] :: [] := by decide
theorem witness_LateAnswers :
    let s := opened .d (outs 0 0) [good, meddling, good, good, good]
    s.current = none ∧
      s.env = [answer true false].map .answer ++ .silent [(Loc.out1, 0x55#8)] :: [good, good, good] ∧
      (after .setup s).current = some .setup := by decide
theorem witness_DebugTrace :
    let s := { opened .d (outs 0 0x2B) [good, good] with debug := true }
    (after .setPulse s).trace.length = 3 ∧ (after .setPulse s.withoutTrace).trace = [] := by decide
theorem witness_NothingIsTraced : (opened .d (outs 0 0x2B) [good, good]).debug = false := by decide
theorem witness_KeepsTheHandle :
    (after .setPulse (opened .d (outs 0 0x2B) [good, good])).current = none ∧
      (opened .d (outs 0 0x2B) [good, good]).lifecycle = gate .setPulse := by decide
theorem witness_KeepsTheOtherRegisters :
    (∃ t, exec .setPulse { opened .d (outs 0 0x2B) [good, good] with temp := 7#32, v0 := 9#8 } = .next t) ∧
      Instr.setPulse ≠ .readTemp true ∧ (∀ ch, Instr.setPulse ≠ .select ch) ∧ (∀ level, Instr.setPulse ≠ .setAtten level) ∧
      (∀ wb, Instr.setPulse ≠ .readTemp wb) := by
  exact ⟨⟨_, rfl⟩, by simp⟩
theorem witness_KeepsV1 :
    (∃ t, exec (.readTemp false) { opened .d (outs 0 0) [good] with v1 := 9#8 } = .next t) ∧
      (∀ ch, Instr.readTemp false ≠ .select ch) ∧ Instr.readTemp false ≠ .setPulse ∧ Instr.readTemp false ≠ .setVco := by
  exact ⟨⟨_, rfl⟩, by simp⟩
theorem witness_KeepsEveryOtherByte :
    (opened .d (outs 0 0x2B) [good, good]).undisturbedAt Loc.out0.key = true ∧
      (opened .d (outs 0 0x2B) [meddling, good]).undisturbedAt Loc.out0.key = true ∧
      ∀ l ∈ storedLocs .setPulse, l.key ≠ Loc.out0.key := by decide
theorem witness_StepKeepsConsistent :
    let s := { opened .d (outs 0 0) [good] with host := [.write .cmd 0x03000000#32] }
    s.Consistent ∧ ∃ t, step s = .next t :=
  ⟨witness_opened_consistent _ _, _, rfl⟩

end Sys2Proof.Machine.Test
end

section
/-! PROOFS. The host's side: what a step does with the next host action, and what the host reads. -/

namespace Sys2Proof.Machine

/-! ### The host's next action -/

/-- With `BUSY = 0` the host's next write is taken, waiting or hasty (R37, R272). -/
theorem step_idle_write {s : State} {r : HostReg} {w : Word} {rest : List HostAction} (hc : s.current = none)
    (hh : s.host = .write r w :: rest ∨ s.host = .hastyWrite r w :: rest) :
    step s = hostWrite r w { s with host := rest } := by
  rcases hh with hh | hh <;> simp [step, machineTurn, hc, hh]

/-- With `BUSY = 1` a hasty write is taken at once: of a guarded register it is refused, of any other it is dropped
(R38, log 17). -/
theorem step_busy_hastyWrite {s : State} {r : HostReg} {w : Word} {rest : List HostAction} (hc : s.current ≠ none)
    (hh : s.host = .hastyWrite r w :: rest) :
    step s = if r.guarded then .refused .hostWriteWhileBusy else .next { s with host := rest } := by
  obtain ⟨i, hi⟩ := Option.ne_none_iff_exists'.mp hc
  simp [step, machineTurn, hi, hh]

/-- With `BUSY = 1` and no action that the host takes at once, it is the sequencer's turn (R21; log 5). -/
theorem step_busy {s : State} {i : Instr} (hc : s.current = some i)
    (hh : s.host = [] ∨ ∃ r w rest, s.host = .write r w :: rest) : step s = sequencerTurn i s := by
  rcases hh with hh | ⟨r, w, rest, hh⟩ <;> simp [step, machineTurn, hc, hh]

/-- With a turn of the environment to take, the sequencer goes on with its command (R155). -/
theorem sequencerTurn_of_turn {s : State} {turn : EnvTurn} {turns : List EnvTurn} (h : s.env = turn :: turns)
    (i : Instr) : sequencerTurn i s = exec i s := by
  simp [sequencerTurn, h]

/-- Settles O5: the write is taken, and its word decodes to the command. -/
theorem writtenCommandIsExecuted : Obligations.WrittenCommandIsExecuted := by
  intro s w i rest hc hd hh
  rw [step_idle_write hc hh]
  simp [hostWrite, writeCmd, hd]

/-- Settles O7: it is the sequencer's turn, and there is a turn to take. -/
theorem waitingCommandGoesOn : Obligations.WaitingCommandGoesOn := by
  intro s i turn turns hc he hh
  rw [step_busy hc hh, sequencerTurn_of_turn he]

/-- Settles O9: the three registers are the guarded ones. -/
theorem writeWhileBusyIsRefused : Obligations.WriteWhileBusyIsRefused := by
  intro s r w rest hc hr hh
  have hg : r.guarded = true := by rcases hr with rfl | rfl | rfl <;> rfl
  rw [step_busy_hastyWrite hc hh, if_pos hg]

/-- Settles O11: by the register written; a hasty write of an unguarded register is dropped. -/
theorem hostWritesItsArgumentRegisters : Obligations.HostWritesItsArgumentRegisters := by
  refine fun s r w rest => ⟨fun hc hh => ?_, fun hc hh hr => ?_⟩
  · rw [step_idle_write hc hh]
    refine ⟨?_, ?_, ?_⟩
    · rintro rfl; rfl
    · rintro rfl; rfl
    · rintro (rfl | rfl | rfl) <;> rfl
  · have hg : ¬r.guarded = true := by rcases hr with rfl | rfl | rfl <;> decide
    rw [step_busy_hastyWrite hc hh, if_neg hg]

/-! ### What the host reads -/

/-- Settles O15: the fields of STATUS are the parts of a concatenation, each found by passing over those above it. -/
theorem statusPacksItsFields : Obligations.StatusPacksItsFields := by
  intro s
  refine ⟨?busy, ?_, ?_, ?_, ?_, ?_, ?_, ?_, ?_, ⟨rfl, rfl, rfl⟩, ⟨rfl, rfl⟩, ⟨rfl, rfl, rfl, rfl, rfl, rfl, rfl, rfl⟩,
    rfl, rfl, rfl, rfl, rfl⟩
  case busy =>
    iterate 7 refine (BitVec.extractLsb'_append_eq_of_add_le (by omega)).trans ?_
    exact BitVec.extractLsb'_append_eq_right
  all_goals
    repeat refine (BitVec.extractLsb'_append_eq_of_add_le (by omega)).trans ?_
    exact BitVec.extractLsb'_append_eq_left

end Sys2Proof.Machine
end

section
/-! PROOFS. Frames: the registers each command may write, and what every command therefore keeps (R24, R35, R39,
R226). -/

namespace Sys2Proof.Machine

variable {α : Type}

/-- The view does not look at the fields the command writes, beyond those that every step may change. -/
def BlindTo (i : Instr) (π : State → α) : Prop :=
  match i with
  | .openDev _ =>
    ∀ (s : State) (lifecycle : Lifecycle) (rev : BoardRev) (debug busOpen gpioOpen : Bool) (handleBus handlePin : Word),
      π { s with
        lifecycle := lifecycle, rev := rev, debug := debug, busOpen := busOpen, gpioOpen := gpioOpen,
        handleBus := handleBus, handlePin := handlePin } = π s
  | .close =>
    ∀ (s : State) (lifecycle : Lifecycle) (busOpen gpioOpen : Bool) (en : EnLine),
      π { s with lifecycle := lifecycle, busOpen := busOpen, gpioOpen := gpioOpen, en := en } = π s
  | .enable => ∀ (s : State) (en : EnLine), π { s with en := en } = π s
  | .disable => ∀ (s : State) (en : EnLine), π { s with en := en } = π s
  | .setup => True
  | .select _ =>
    (∀ (s : State) (v0 : Byte), π { s with v0 := v0 } = π s) ∧ ∀ (s : State) (v1 : Byte), π { s with v1 := v1 } = π s
  | .setPulse => ∀ (s : State) (v1 : Byte), π { s with v1 := v1 } = π s
  | .setVco => ∀ (s : State) (v1 : Byte), π { s with v1 := v1 } = π s
  | .setAtten _ =>
    ∀ (s : State) (v0 : Byte) (lvl c r : BitVec 6), π { s with v0 := v0, lvl := lvl, c := c, r := r } = π s
  | .readTemp wb =>
    ∀ (s : State) (tb0 tb1 : Byte) (temp : Word), (wb = false → temp = s.temp) →
      π { s with tb0 := tb0, tb1 := tb1, temp := temp } = π s
  | .enableDebug _ => ∀ (s : State) (debug : Bool), π { s with debug := debug } = π s

/-- Every step of a command keeps what the command does not write. -/
theorem commandSteps_keeps {π : State → α} {i : Instr} (hw : BlindTo i π) (s : State)
    (h : Blind π := by intro; intros; rfl) : π (commandSteps i s).state = π s := by
  cases i with
  | openDev revch => exact openStep_keeps h hw revch s
  | close => exact closeStep_keeps h hw s
  | enable => exact enableStep_keeps h hw s
  | disable => exact disableStep_keeps h hw s
  | setup => exact setupStep_keeps h s
  | select ch => exact selectStep_keeps h hw.1 hw.2 ch s
  | setPulse => exact modeStep_keeps h hw true s
  | setVco => exact modeStep_keeps h hw false s
  | setAtten level => exact setAttenStep_keeps h hw level s
  | readTemp wb => exact readTempStep_keeps h wb hw s
  | enableDebug dbg => exact enableDebugStep_keeps h hw dbg s

/-- A view that looks neither at what the command writes nor at the sticky mark is kept by the command. -/
theorem exec_keeps_view {π : State → α} {i : Instr} {s t : State} (he : exec i s = .next t) (hw : BlindTo i π)
    (h : Blind π := by intro; intros; rfl)
    (hm : ∀ (s : State) (faultSeen : Bool), π { s with faultSeen := faultSeen } = π s := by intros; rfl) : π t = π s :=
  exec_keeps h he (fun s => commandSteps_keeps hw s h) (.inr hm)

/-- The host's argument registers and the host's list. -/
def State.hostFields (s : State) : Word × Word × List HostAction := (s.busIdx, s.gpioPin, s.host)

/-- What OPEN records and CLOSE keeps (R136). -/
def State.record (s : State) : BoardRev × Word × Word := (s.rev, s.handleBus, s.handlePin)

/-- The handle (R144). -/
def State.handle (s : State) : Lifecycle × Bool × Bool × BoardRev × Word × Word :=
  (s.lifecycle, s.busOpen, s.gpioOpen, s.record)

/-- No command writes a field of the host. -/
theorem blindTo_hostFields (i : Instr) : BlindTo i State.hostFields := by
  cases i <;> simp [BlindTo, State.hostFields]

/-- No command writes the sticky mark while it runs. -/
theorem blindTo_faultSeen (i : Instr) : BlindTo i State.faultSeen := by
  cases i <;> simp [BlindTo]

/-- OPEN alone writes the record of the handle. -/
theorem blindTo_record {i : Instr} (h : ∀ revch, i ≠ .openDev revch) : BlindTo i State.record := by
  cases i <;> simp_all [BlindTo, State.record]

/-- OPEN and CLOSE alone write the handle. -/
theorem blindTo_handle {i : Instr} (hc : i ≠ .close) (ho : ∀ revch, i ≠ .openDev revch) :
    BlindTo i State.handle := by
  cases i <;> simp_all [BlindTo, State.handle, State.record]

/-- OPEN and ENABLE_DEBUG alone write `DEBUG`. -/
theorem blindTo_debug {i : Instr} (hd : ∀ dbg, i ≠ .enableDebug dbg) (ho : ∀ revch, i ≠ .openDev revch) :
    BlindTo i State.debug := by
  cases i <;> simp_all [BlindTo]

/-- ENABLE, DISABLE and CLOSE alone write the enable line. -/
theorem blindTo_en {i : Instr} (he : i ≠ .enable) (hd : i ≠ .disable) (hc : i ≠ .close) : BlindTo i State.en := by
  cases i <;> simp_all [BlindTo]

/-- READ_TEMP with write-back alone writes `TEMP`. -/
theorem blindTo_temp {i : Instr} (h : i ≠ .readTemp true) : BlindTo i State.temp := by
  cases i <;> simp_all [BlindTo]

/-- SELECT and SET_ATTEN alone write `V0`. -/
theorem blindTo_v0 {i : Instr} (hs : ∀ ch, i ≠ .select ch) (ha : ∀ level, i ≠ .setAtten level) :
    BlindTo i State.v0 := by
  cases i <;> simp_all [BlindTo]

/-- SELECT, SET_PULSE and SET_VCO alone write `V1`. -/
theorem blindTo_v1 {i : Instr} (hs : ∀ ch, i ≠ .select ch) (hp : i ≠ .setPulse) (hv : i ≠ .setVco) :
    BlindTo i State.v1 := by
  cases i <;> simp_all [BlindTo]

/-- READ_TEMP alone writes `TB0` and `TB1`. -/
theorem blindTo_tempBytes {i : Instr} (h : ∀ wb, i ≠ .readTemp wb) : BlindTo i fun s => (s.tb0, s.tb1) := by
  cases i <;> simp_all [BlindTo]

/-- SET_ATTEN alone writes `LVL`, `C` and `R`. -/
theorem blindTo_levels {i : Instr} (h : ∀ level, i ≠ .setAtten level) : BlindTo i fun s => (s.lvl, s.c, s.r) := by
  cases i <;> simp_all [BlindTo]

/-- Settles O56: each clause is a view that the command does not write. -/
theorem commandsKeepTheHandle : Obligations.CommandsKeepTheHandle := by
  intro i s t he
  have host := exec_keeps_view he (blindTo_hostFields i)
  simp only [State.hostFields, Prod.mk.injEq] at host
  obtain ⟨hidx, hpin, hhost⟩ := host
  refine ⟨hidx, hpin, hhost, fun hl => ?_, fun hc ho => ?_, fun hc => ?_, fun hd ho => ?_, fun h1 h2 h3 => ?_⟩
  · exact exec_keeps (fun _ _ _ _ _ _ _ _ _ _ => rfl) he (commandSteps_keeps (blindTo_faultSeen i)) (.inl hl)
  · have handle := exec_keeps_view he (blindTo_handle hc ho)
    simp only [State.handle, State.record, Prod.mk.injEq] at handle
    obtain ⟨hlife, hbus, hgpio, hrecord⟩ := handle
    exact ⟨hlife, hrecord.1, hbus, hgpio, hrecord.2⟩
  · simpa only [State.record, Prod.mk.injEq] using exec_keeps_view he (blindTo_record (by simp [hc]))
  · exact exec_keeps_view he (blindTo_debug hd ho)
  · exact exec_keeps_view he (blindTo_en h1 h2 h3)

/-- Settles O57: each clause is a view that the command does not write. -/
theorem commandsKeepTheOtherRegisters : Obligations.CommandsKeepTheOtherRegisters := by
  intro i s t he
  refine ⟨fun h => ?_, fun hs ha => ?_, fun hs hp hv => ?_, fun h => ?_, fun h => ?_⟩
  · exact exec_keeps_view he (blindTo_temp h)
  · exact exec_keeps_view he (blindTo_v0 hs ha)
  · exact exec_keeps_view he (blindTo_v1 hs hp hv)
  · simpa only [Prod.mk.injEq] using exec_keeps_view he (blindTo_tempBytes h)
  · simpa only [Prod.mk.injEq] using exec_keeps_view he (blindTo_levels h)

end Sys2Proof.Machine
end

section
/-! PROOFS. The shape of a step: it ends the command, releases a resource of CLOSE, or asks the environment one call and
reacts to the answer alone (R27, R76). What is said of the three shapes is said of every step of every command. -/

namespace Sys2Proof.Machine

/-! ### What a reaction may do -/

/-- The state with other turns to come. -/
def State.setEnv (env : List EnvTurn) (s : State) : State := { s with env := env }

/-- The state with another call in flight, other turns to come and other devices. -/
def State.withBus (inFlight : Option Call) (env : List EnvTurn) (dev : Devices) (s : State) : State :=
  { s with inFlight := inFlight, env := env, dev := dev }

/-- The fields that say which command runs, LIFECYCLE, and the error fields. -/
def State.control (s : State) : Option Instr × Lifecycle × ErrKind × Word :=
  (s.current, s.lifecycle, s.errKind, s.errCode)

/-- A command has ended: `STEP` is 0, and the error fields agree (R34, R272). -/
structure State.Ended (s : State) : Prop where
  current : s.current = none
  step : s.step = 0#3
  errors : s.errorsMatch

theorem State.finish_ended (s : State) : s.finish.Ended := ⟨rfl, rfl, rfl⟩

/-- What may come of the answer to `call`, with nothing in flight any more: from `s` the command goes on with the
control fields kept, or ends; the devices change by the call's effect alone. -/
def Progress.follows (call : Call) (s : State) (p : Progress) : Prop :=
  p.state.inFlight = none ∧ (p.state.dev = s.dev ∨ p.state.dev = call.effect s.dev) ∧
    match p with
    | .go u => u.control = s.control
    | .halt u => u.Ended

/-- A change of the state, whether the command goes on or stops. -/
def Progress.map (g : State → State) : Progress → Progress
  | .go s => .go (g s)
  | .halt s => .halt (g s)

/-- `k` is what a step does with the answer to `call`: it looks neither at the turns to come nor again at what others
wrote. -/
structure Reacts (call : Call) (k : Answer → State → Progress) : Prop where
  follows : ∀ a s, (k a s).follows call s
  setEnv : ∀ a ws s env, k { a with others := ws } (s.setEnv env) = (k a s).map (State.setEnv env)

/-- The turns to come stay. -/
theorem Reacts.env {call : Call} {k : Answer → State → Progress} (h : Reacts call k) (a : Answer) (s : State) :
    (k a s).state.env = s.env := by
  have hk : k a s = (k a s).map (State.setEnv s.env) := h.setEnv a a.others s s.env
  rw [hk]
  cases k a s <;> rfl

/-- What others wrote before the answer is not looked at again. -/
theorem Reacts.others {call : Call} {k : Answer → State → Progress} (h : Reacts call k) (a : Answer)
    (ws : List (Loc × Byte)) (s : State) : k { a with others := ws } s = k a s :=
  (h.setEnv a ws s s.env).trans (h.setEnv a a.others s s.env).symm

/-- Local computation of a step: it changes neither the control fields nor the bus side, and does not look at the turns
to come. -/
structure Computes (g : State → State) : Prop where
  control : ∀ s, (g s).control = s.control
  inFlight : ∀ s, (g s).inFlight = s.inFlight
  dev : ∀ s, (g s).dev = s.dev
  setEnv : ∀ s env, g (s.setEnv env) = (g s).setEnv env

theorem Reacts.andThen {call : Call} {k : Answer → State → Progress} (h : Reacts call k) {g : State → State}
    (hg : Computes g) : Reacts call fun a s => (k a s).andThen g where
  follows a s := by
    have hf := h.follows a s
    cases hk : k a s with
    | go u =>
      rw [hk] at hf
      obtain ⟨inFlight, dev, control⟩ := hf
      exact ⟨(hg.inFlight u).trans inFlight, by simpa only [Progress.andThen_go, Progress.state_go, hg.dev] using dev,
        (hg.control u).trans control⟩
    | halt u =>
      rw [hk] at hf
      exact hf
  setEnv a ws s env := by
    rw [h.setEnv]
    cases k a s
    · exact congrArg Progress.go (hg.setEnv ..)
    · rfl

/-- What comes of asking, with `k` for the answer. -/
def Ask.resume (k : Answer → State → Progress) : Ask → Progress
  | .waits s => .halt s
  | .answered a s => k a s

theorem Ask.resume_andThen (k : Answer → State → Progress) (g : State → State) (q : Ask) :
    (q.resume k).andThen g = q.resume fun a s => (k a s).andThen g := by
  cases q <;> rfl

/-- What a step makes of an answer that is there. -/
def reaction (f : State → Progress) (a : Answer) (s : State) : Progress :=
  f (s.setEnv (.answer { a with others := [] } :: s.env))

/-! ### The primitives ask and react -/

theorem OsCode.toWord_toNat (e : OsCode) : e.toWord.toNat = e.pred.val + 1 := by
  have := e.pred.isLt
  simp only [OsCode.toWord, BitVec.toNat_ofNat]
  omega

/-- An error with an OS code has it in the range of R34. -/
theorem State.raise_code_errors {k : ErrKind} (hk : k = .busOpenFailed ∨ k = .transportError) (e : OsCode) (s : State) :
    (s.raise k e.toWord).errorsMatch := by
  have := e.pred.isLt
  simp only [State.errorsMatch, State.raise_errKind, if_pos hk, State.raise_errCode, OsCode.toWord_toNat]
  omega

/-- A step that asks does so whatever the turns to come are. -/
theorem asks_of_turns {f : State → Progress} {call : Call} {s : State}
    (h : ∀ env, f (s.setEnv env) = (ask call (s.setEnv env)).resume (reaction f)) :
    f s = (ask call s).resume (reaction f) :=
  h s.env

theorem memWrite_asks (dev : DevAddr) (off val : Byte) (s : State) :
    memWrite dev off val s = (ask (.write dev off val) s).resume (reaction (memWrite dev off val)) := by
  refine asks_of_turns fun env => ?_
  rcases env with _ | ⟨_ | _, _⟩ <;> rfl

theorem memRead_asks (dev : DevAddr) (off : Byte) (len : ReadLen) (deliver : List Byte → State → State) (s : State) :
    memRead dev off len deliver s = (ask (.read dev off len) s).resume (reaction (memRead dev off len deliver)) := by
  refine asks_of_turns fun env => ?_
  rcases env with _ | ⟨_ | _, _⟩ <;> rfl

theorem gpioWrite_asks (bytes : List Byte) (line : EnLine) (s : State) :
    gpioWrite bytes line s = (ask (.gpioWrite bytes) s).resume (reaction (gpioWrite bytes line)) := by
  refine asks_of_turns fun env => ?_
  rcases env with _ | ⟨_ | _, _⟩ <;> rfl

theorem gpioBootstrap_asks (s : State) :
    gpioBootstrap s = (ask (.bootstrap s.gpioPin) s).resume (reaction gpioBootstrap) := by
  refine asks_of_turns (call := .bootstrap s.gpioPin) fun env => ?_
  rcases env with _ | ⟨_ | _, _⟩ <;> rfl

theorem busAcquire_asks (s : State) : busAcquire s = (ask (.busAcquire s.busIdx) s).resume (reaction busAcquire) := by
  refine asks_of_turns (call := .busAcquire s.busIdx) fun env => ?_
  rcases env with _ | ⟨_ | _, _⟩ <;> rfl

theorem gpioAcquire_asks (s : State) :
    gpioAcquire s = (ask (.gpioAcquire s.gpioPin) s).resume (reaction gpioAcquire) := by
  refine asks_of_turns (call := .gpioAcquire s.gpioPin) fun env => ?_
  rcases env with _ | ⟨_ | _, _⟩ <;> rfl

theorem memWrite_reacts (dev : DevAddr) (off val : Byte) :
    Reacts (.write dev off val) (reaction (memWrite dev off val)) where
  follows a s := by
    simp only [reaction, State.setEnv, memWrite, ask]
    split
    · exact ⟨rfl, .inr rfl, rfl⟩
    · refine ⟨rfl, ?_, rfl, rfl, State.raise_code_errors (.inr rfl) _ _⟩
      cases a.took
      · exact .inl rfl
      · exact .inr rfl
  setEnv a ws s env := by
    simp only [reaction, State.setEnv, memWrite, ask]
    split <;> rfl

theorem memRead_reacts (dev : DevAddr) (off : Byte) (len : ReadLen) {deliver : List Byte → State → State}
    (hd : ∀ bs, Computes (deliver bs)) : Reacts (.read dev off len) (reaction (memRead dev off len deliver)) where
  follows a s := by
    simp only [reaction, State.setEnv, memRead, ask]
    split
    · exact ⟨(hd _).inFlight _, .inl ((hd _).dev _), (hd _).control _⟩
    · exact ⟨rfl, .inl rfl, rfl, rfl, State.raise_code_errors (.inr rfl) _ _⟩
  setEnv a ws s env := by
    simp only [reaction, State.setEnv, memRead, ask]
    split
    · exact congrArg (fun u : State => Progress.go u.advance) ((hd (s.dev.receive dev off len)).setEnv
        ({ s with inFlight := none }.noteOk (readMessages dev off len (s.dev.receive dev off len))) env)
    · rfl

theorem gpioWrite_reacts (bytes : List Byte) (line : EnLine) :
    Reacts (.gpioWrite bytes) (reaction (gpioWrite bytes line)) where
  follows a s := by
    simp only [reaction, State.setEnv, gpioWrite, ask]
    split
    · exact ⟨rfl, .inl rfl, rfl⟩
    · exact ⟨rfl, .inl rfl, rfl, rfl, rfl⟩
  setEnv a ws s env := by
    simp only [reaction, State.setEnv, gpioWrite, ask]
    by_cases h : acceptedCount { a with others := [] } bytes.length = some bytes.length
    · simp only [if_pos h]; rfl
    · simp only [if_neg h]; rfl

theorem gpioBootstrap_reacts (pin : Word) : Reacts (.bootstrap pin) (reaction gpioBootstrap) :=
  ⟨fun _ _ => ⟨rfl, .inl rfl, rfl⟩, fun _ _ _ _ => rfl⟩

theorem busAcquire_reacts (idx : Word) : Reacts (.busAcquire idx) (reaction busAcquire) where
  follows a s := by
    simp only [reaction, State.setEnv, busAcquire, ask]
    split
    · exact ⟨rfl, .inl rfl, rfl⟩
    · exact ⟨rfl, .inl rfl, rfl, rfl, State.raise_code_errors (.inl rfl) _ _⟩
  setEnv a ws s env := by
    simp only [reaction, State.setEnv, busAcquire, ask]
    split <;> rfl

theorem gpioAcquire_reacts (pin : Word) : Reacts (.gpioAcquire pin) (reaction gpioAcquire) where
  follows a s := by
    simp only [reaction, State.setEnv, gpioAcquire, ask]
    split
    · exact ⟨rfl, .inl rfl, rfl⟩
    · exact ⟨rfl, .inl rfl, rfl, rfl, rfl⟩
  setEnv a ws s env := by
    simp only [reaction, State.setEnv, gpioAcquire, ask]
    split <;> rfl

/-! ### The local computations -/

theorem deliverAtten_computes (level : Int) (bs : List Byte) : Computes (deliverAtten level bs) :=
  ⟨fun _ => rfl, fun _ => rfl, fun _ => rfl, fun _ _ => rfl⟩

theorem deliverMode_computes (pulseOn : Bool) (bs : List Byte) : Computes (deliverMode pulseOn bs) :=
  ⟨fun _ => rfl, fun _ => rfl, fun _ => rfl, fun _ _ => rfl⟩

theorem deliverV0_computes (bs : List Byte) : Computes (deliverV0 bs) :=
  ⟨fun _ => rfl, fun _ => rfl, fun _ => rfl, fun _ _ => rfl⟩

theorem deliverV1_computes (bs : List Byte) : Computes (deliverV1 bs) :=
  ⟨fun _ => rfl, fun _ => rfl, fun _ => rfl, fun _ _ => rfl⟩

theorem deliverTemp_computes (wb : Bool) (bs : List Byte) : Computes (deliverTemp wb bs) :=
  ⟨fun _ => rfl, fun _ => rfl, fun _ => rfl, fun _ _ => rfl⟩

theorem editChannel_computes (ch : Channel) : Computes (editChannel ch) :=
  ⟨fun _ => rfl, fun _ => rfl, fun _ => rfl, fun _ _ => rfl⟩

theorem afterReads_computes (ch : Channel) : Computes (afterReads ch) where
  control s := by unfold afterReads; split <;> rfl
  inFlight s := by unfold afterReads; split <;> rfl
  dev s := by unfold afterReads; split <;> rfl
  setEnv s env := by simp only [afterReads, State.setEnv]; split <;> rfl

/-! ### The three shapes -/

/-- What a command may write: its own bytes, and a byte that latches the attenuator under SELECT and SET_ATTEN alone
(R43, R75). -/
def MayIssue (i : Instr) : Call → Prop
  | .write dev off val =>
    { dev := dev, off := off, idx := 0 } ∈ storedLocs i ∧
      (latches { dev := dev, off := off, idx := 0 } val = true → (∃ ch, i = .select ch) ∨ ∃ level, i = .setAtten level)
  | _ => True

/-- SELECT has no step 2 on revision D (R181). -/
def State.onPath (s : State) : Instr → Prop
  | .select _ => ¬(s.rev = .d ∧ s.step.toNat = 2)
  | _ => True

/-- The step asks `call` and does `k` with the answer, whatever is in flight, to come and on the bus. -/
def Resumes (i : Instr) (s : State) (call : Call) (k : Answer → State → Progress) : Prop :=
  ∀ inFlight env dev, commandSteps i (s.withBus inFlight env dev) = (ask call (s.withBus inFlight env dev)).resume k

theorem Resumes.step {i : Instr} {s : State} {call : Call} {k : Answer → State → Progress} (h : Resumes i s call k) :
    commandSteps i s = (ask call s).resume k :=
  h s.inFlight s.env s.dev

/-- Everything a step of a command can be. -/
inductive StepShape (i : Instr) (s : State) : Prop
  /-- The command ends without asking. -/
  | ends (u : State) (h : commandSteps i s = .halt u) (ended : u.Ended) (inFlight : u.inFlight = s.inFlight)
      (dev : u.dev = s.dev) (env : u.env = s.env) (last : ¬mayWaitAt s.rev s.step.toNat i)
  /-- CLOSE releases a resource, after the environment's step. -/
  | releases (u : State) (hi : i = .close) (h : commandSteps i s = .go u) (control : u.control = s.control)
      (inFlight : u.inFlight = s.inFlight) (dev : u.dev = s.interlude.dev) (env : u.env = s.interlude.env)
  /-- The command asks one call and reacts to the answer. -/
  | asks (call : Call) (k : Answer → State → Progress) (reacts : Reacts call k) (issues : MayIssue i call)
      (resumes : Resumes i s call k) (waits : s.onPath i → mayWaitAt s.rev s.step.toNat i)

section
variable {i : Instr} {s : State}

theorem StepShape.of_write (dev : DevAddr) (off val : Byte)
    (h : ∀ x e d, commandSteps i (s.withBus x e d) = memWrite dev off val (s.withBus x e d))
    (hi : MayIssue i (.write dev off val)) (hw : s.onPath i → mayWaitAt s.rev s.step.toNat i) : StepShape i s :=
  .asks _ _ (memWrite_reacts dev off val) hi (fun x e d => (h x e d).trans (memWrite_asks ..)) hw

theorem StepShape.of_read (dev : DevAddr) (off : Byte) (len : ReadLen) {deliver : List Byte → State → State}
    (h : ∀ x e d, commandSteps i (s.withBus x e d) = memRead dev off len deliver (s.withBus x e d))
    (hd : ∀ bs, Computes (deliver bs)) (hw : s.onPath i → mayWaitAt s.rev s.step.toNat i) : StepShape i s :=
  .asks _ _ (memRead_reacts dev off len hd) trivial (fun x e d => (h x e d).trans (memRead_asks ..)) hw

theorem StepShape.of_gpioWrite (bytes : List Byte) (line : EnLine)
    (h : ∀ x e d, commandSteps i (s.withBus x e d) = gpioWrite bytes line (s.withBus x e d))
    (hw : s.onPath i → mayWaitAt s.rev s.step.toNat i) : StepShape i s :=
  .asks _ _ (gpioWrite_reacts bytes line) trivial (fun x e d => (h x e d).trans (gpioWrite_asks ..)) hw

/-- The end of a command that has done its steps. -/
theorem StepShape.of_finish (h : commandSteps i s = .halt s.finish) (last : ¬mayWaitAt s.rev s.step.toNat i) :
    StepShape i s :=
  .ends _ h s.finish_ended rfl rfl rfl last

end

/-- The write of a byte that does not latch the attenuator. -/
theorem mayIssue_of_not_latches {i : Instr} {dev : DevAddr} {off val : Byte}
    (hm : { dev := dev, off := off, idx := 0 } ∈ storedLocs i)
    (hl : latches { dev := dev, off := off, idx := 0 } val = false) : MayIssue i (.write dev off val) :=
  ⟨hm, fun h => absurd h (by simp [hl])⟩

/-- Each step of OPEN (R130). -/
theorem openStep_shape (revch : Byte) (s : State) : StepShape (.openDev revch) s := by
  cases hn : normalise revch with
  | none =>
    refine .ends (s.raise .invalidRevision 0#32) ?_ ⟨rfl, rfl, rfl⟩ rfl rfl rfl (fun h => h.1 hn)
    simp only [commandSteps, openStep, hn]
  | some rev =>
    have hne : normalise revch ≠ none := by simp [hn]
    match hk : s.step.toNat with
    | 0 =>
      refine .asks _ _ (gpioBootstrap_reacts s.gpioPin) trivial (fun x e d => ?_) (fun _ => ⟨hne, by omega⟩)
      simp only [commandSteps, openStep, hn, openSteps, State.withBus, hk]
      exact gpioBootstrap_asks _
    | 1 =>
      refine .asks _ _ (busAcquire_reacts s.busIdx) trivial (fun x e d => ?_) (fun _ => ⟨hne, by omega⟩)
      simp only [commandSteps, openStep, hn, openSteps, State.withBus, hk]
      exact busAcquire_asks _
    | 2 =>
      refine .asks _ _ (gpioAcquire_reacts s.gpioPin) trivial (fun x e d => ?_) (fun _ => ⟨hne, by omega⟩)
      simp only [commandSteps, openStep, hn, openSteps, State.withBus, hk]
      exact gpioAcquire_asks _
    | n + 3 =>
      refine .ends (s.opened rev).finish ?_ (State.finish_ended _) rfl rfl rfl (fun h => absurd h.2 (by omega))
      simp only [commandSteps, openStep, hn, openSteps, hk]

/-- Each step of CLOSE (R138). -/
theorem closeStep_shape (s : State) : StepShape .close s := by
  match hk : s.step.toNat with
  | 0 =>
    have h : commandSteps .close s = gpioRelease s := by simp only [commandSteps, closeStep, hk]
    exact .releases _ rfl h rfl rfl rfl rfl
  | 1 =>
    have h : commandSteps .close s = busRelease s := by simp only [commandSteps, closeStep, hk]
    exact .releases _ rfl h rfl rfl rfl rfl
  | n + 2 =>
    refine .ends { s with lifecycle := .closed, en := .unknown }.finish ?_ (State.finish_ended _) rfl rfl rfl id
    simp only [commandSteps, closeStep, hk]

/-- Each step of ENABLE (R140). -/
theorem enableStep_shape (s : State) : StepShape .enable s := by
  match hk : s.step.toNat with
  | 0 =>
    refine .of_gpioWrite Config.literalHigh .high (fun x e d => ?_) (fun _ => by simp [mayWaitAt, hk])
    simp only [commandSteps, enableStep, State.withBus, hk]
  | n + 1 => exact .of_finish (by simp only [commandSteps, enableStep, hk]) (by simp [mayWaitAt, hk])

/-- Each step of DISABLE (R141). -/
theorem disableStep_shape (s : State) : StepShape .disable s := by
  match hk : s.step.toNat with
  | 0 =>
    refine .of_gpioWrite Config.literalLow .low (fun x e d => ?_) (fun _ => by simp [mayWaitAt, hk])
    simp only [commandSteps, disableStep, State.withBus, hk]
  | n + 1 => exact .of_finish (by simp only [commandSteps, disableStep, hk]) (by simp [mayWaitAt, hk])

/-- Each step of SETUP (R166). -/
theorem setupStep_shape (s : State) : StepShape .setup s := by
  match hk : s.step.toNat with
  | 0 =>
    refine .of_write Config.expander0 Config.regOut 0x00#8 (fun x e d => ?_)
      (mayIssue_of_not_latches (by decide) (by decide)) (fun _ => by simp [mayWaitAt, hk])
    simp only [commandSteps, setupStep, State.withBus, hk]
  | 1 =>
    refine .of_write Config.expander0 Config.regCfg 0x00#8 (fun x e d => ?_)
      (mayIssue_of_not_latches (by decide) (by decide)) (fun _ => by simp [mayWaitAt, hk])
    simp only [commandSteps, setupStep, State.withBus, hk]
  | 2 =>
    refine .of_write Config.expander1 Config.regOut 0x00#8 (fun x e d => ?_)
      (mayIssue_of_not_latches (by decide) (by decide)) (fun _ => by simp [mayWaitAt, hk])
    simp only [commandSteps, setupStep, State.withBus, hk]
  | 3 =>
    refine .of_write Config.expander1 Config.regCfg 0x00#8 (fun x e d => ?_)
      (mayIssue_of_not_latches (by decide) (by decide)) (fun _ => by simp [mayWaitAt, hk])
    simp only [commandSteps, setupStep, State.withBus, hk]
  | n + 4 => exact .of_finish (by simp only [commandSteps, setupStep, hk]) (by simp [mayWaitAt, hk])

/-- Each step of SELECT (R181). -/
theorem selectStep_shape (ch : Channel) (s : State) : StepShape (.select ch) s := by
  have sends : ∀ dev val, dev = Config.expander0 ∨ dev = Config.expander1 →
      MayIssue (.select ch) (.write dev Config.regOut val) := by
    rintro dev val (rfl | rfl)
    · exact ⟨.head _, fun _ => .inl ⟨ch, rfl⟩⟩
    · exact ⟨.tail _ (.head _), fun _ => .inl ⟨ch, rfl⟩⟩
  match hk : s.step.toNat with
  | 0 =>
    refine .of_read Config.expander0 Config.regOut .one (fun x e d => ?_) deliverV0_computes (fun hp => ⟨by omega, hp⟩)
    simp only [commandSteps, selectStep, State.withBus, hk]
  | 1 =>
    refine .asks _ _ ((memRead_reacts Config.expander1 Config.regOut .one deliverV1_computes).andThen
      (afterReads_computes ch)) trivial (fun x e d => ?_) (fun hp => ⟨by omega, hp⟩)
    rw [← Ask.resume_andThen, ← memRead_asks]
    simp only [commandSteps, selectStep, State.withBus, hk]
  | 2 =>
    refine .asks _ _ ((memWrite_reacts Config.expander1 Config.regOut s.v1).andThen (editChannel_computes ch))
      (sends _ _ (.inr rfl)) (fun x e d => ?_) (fun hp => ⟨by omega, hp⟩)
    rw [← Ask.resume_andThen, ← memWrite_asks]
    simp only [commandSteps, selectStep, State.withBus, hk]
  | 3 =>
    refine .of_write Config.expander0 Config.regOut s.v0 (fun x e d => ?_) (sends _ _ (.inl rfl))
      (fun hp => ⟨by omega, hp⟩)
    simp only [commandSteps, selectStep, State.withBus, hk]
  | 4 =>
    refine .of_write Config.expander1 Config.regOut s.v1 (fun x e d => ?_) (sends _ _ (.inr rfl))
      (fun hp => ⟨by omega, hp⟩)
    simp only [commandSteps, selectStep, State.withBus, hk]
  | n + 5 => exact .of_finish (by simp only [commandSteps, selectStep, hk]) (by simp [mayWaitAt, hk])

/-- Each step of the mode primitive, under SET_PULSE and SET_VCO (R170). -/
theorem modeStep_shape {i : Instr} {pulseOn : Bool} (hc : commandSteps i = modeStep pulseOn)
    (hm : Loc.out1 ∈ storedLocs i) {s : State} (hw : mayWaitAt s.rev s.step.toNat i ↔ s.step.toNat < 2) :
    StepShape i s := by
  match hk : s.step.toNat with
  | 0 =>
    refine .of_read Config.expander1 Config.regOut .one (fun x e d => ?_) (deliverMode_computes pulseOn)
      (fun _ => hw.mpr (by omega))
    simp only [hc, modeStep, State.withBus, hk]
  | 1 =>
    refine .of_write Config.expander1 Config.regOut s.v1 (fun x e d => ?_)
      (mayIssue_of_not_latches hm (latches_ne (by decide) _)) (fun _ => hw.mpr (by omega))
    simp only [hc, modeStep, State.withBus, hk]
  | n + 2 => exact .of_finish (by simp only [hc, modeStep, hk]) (fun h => absurd (hw.mp h) (by omega))

/-- Each step of SET_ATTEN (R196). -/
theorem setAttenStep_shape (level : Int) (s : State) : StepShape (.setAtten level) s := by
  have sends : ∀ val, MayIssue (.setAtten level) (.write Config.expander0 Config.regOut val) :=
    fun _ => ⟨.head _, fun _ => .inr ⟨level, rfl⟩⟩
  match hk : s.step.toNat with
  | 0 =>
    refine .of_read Config.expander0 Config.regOut .one (fun x e d => ?_) (deliverAtten_computes level)
      (fun _ => by simp [mayWaitAt, hk])
    simp only [commandSteps, setAttenStep, State.withBus, hk]
  | 1 =>
    refine .of_write Config.expander0 Config.regOut s.v0 (fun x e d => ?_) (sends _) (fun _ => by simp [mayWaitAt, hk])
    simp only [commandSteps, setAttenStep, State.withBus, hk]
  | 2 =>
    refine .of_write Config.expander0 Config.regOut (s.v0 ||| loadEnable) (fun x e d => ?_) (sends _)
      (fun _ => by simp [mayWaitAt, hk])
    simp only [commandSteps, setAttenStep, State.withBus, hk]
  | 3 =>
    refine .of_write Config.expander0 Config.regOut s.v0 (fun x e d => ?_) (sends _) (fun _ => by simp [mayWaitAt, hk])
    simp only [commandSteps, setAttenStep, State.withBus, hk]
  | n + 4 => exact .of_finish (by simp only [commandSteps, setAttenStep, hk]) (by simp [mayWaitAt, hk])

/-- Each step of READ_TEMP (R211). -/
theorem readTempStep_shape (wb : Bool) (s : State) : StepShape (.readTemp wb) s := by
  match hk : s.step.toNat with
  | 0 =>
    refine .of_read Config.sensor Config.regTemp .two (fun x e d => ?_) (deliverTemp_computes wb)
      (fun _ => by simp [mayWaitAt, hk])
    simp only [commandSteps, readTempStep, State.withBus, hk]
  | n + 1 => exact .of_finish (by simp only [commandSteps, readTempStep, hk]) (by simp [mayWaitAt, hk])

/-- Every step of every command has one of the three shapes. -/
theorem commandSteps_shape (i : Instr) (s : State) : StepShape i s := by
  cases i with
  | openDev revch => exact openStep_shape revch s
  | close => exact closeStep_shape s
  | enable => exact enableStep_shape s
  | disable => exact disableStep_shape s
  | setup => exact setupStep_shape s
  | select ch => exact selectStep_shape ch s
  | setPulse => exact modeStep_shape rfl (by decide) Iff.rfl
  | setVco => exact modeStep_shape rfl (by decide) Iff.rfl
  | setAtten level => exact setAttenStep_shape level s
  | readTemp wb => exact readTempStep_shape wb s
  | enableDebug dbg => exact .ends { s with debug := dbg }.finish rfl (State.finish_ended _) rfl rfl rfl id

end Sys2Proof.Machine
end

section
/-! PROOFS. What follows from the shape of a step alone: the bytes a command leaves, and that the time a call takes
changes nothing (R43, R71, R271). -/

namespace Sys2Proof.Machine

/-! ### Runs -/

/-- A command's steps, run by the sequencer until the command ends or waits. -/
def run (i : Instr) (s : State) : State := runSteps maxSteps (commandSteps i) s

/-- A permitted command is run, from its start or from where it waited (R37). -/
theorem exec_permitted {i : Instr} {s : State} (h : s.lifecycle = gate i) : exec i s = .next (run i (s.enter i)) := by
  rw [exec_eq, runCommand_permitted h, run]

/-- A command that is not permitted ends at once (R231). -/
theorem exec_forbidden {i : Instr} {s : State} (h : s.lifecycle ≠ gate i) :
    exec i s = .next (s.markFault.raise .badState 0#32) := by
  rw [exec_eq, runCommand_forbidden h]

/-- Everything a command can come to: it is run, or it was not permitted. -/
theorem exec_cases {i : Instr} {s t : State} (he : exec i s = .next t) :
    s.lifecycle = gate i ∧ t = run i (s.enter i) ∨ s.lifecycle ≠ gate i ∧ t = s.markFault.raise .badState 0#32 := by
  by_cases h : s.lifecycle = gate i
  · exact .inl ⟨h, Host.Outcome.next.inj (he.symm.trans (exec_permitted h))⟩
  · exact .inr ⟨h, Host.Outcome.next.inj (he.symm.trans (exec_forbidden h))⟩

theorem run_halt {i : Instr} {s u : State} (h : commandSteps i s = .halt u) : run i s = u := runSteps_halt h

/-- A step that goes on begins the rest of the run: the fuel always covers it. -/
theorem run_go {i : Instr} {s u : State} (h : commandSteps i s = .go u) : run i s = run i u := by
  have hl := commandSteps_stepsLeft h
  have hm : s.stepsLeft < 5 + 1 := s.stepsLeft_lt
  exact (runSteps_go h).trans (runSteps_fuel (by omega) (by simp [maxSteps])).symm

/-- Two states with the same next step have the same run. -/
theorem run_congr {i : Instr} {s u : State} (h : commandSteps i s = commandSteps i u) : run i s = run i u := by
  simp only [run, maxSteps, runSteps, h]

@[simp] theorem State.enter_lifecycle (i : Instr) (s : State) : (s.enter i).lifecycle = s.lifecycle := by
  unfold State.enter; split <;> rfl

@[simp] theorem State.enter_env (i : Instr) (s : State) : (s.enter i).env = s.env := by
  unfold State.enter; split <;> rfl

@[simp] theorem State.enter_dev (i : Instr) (s : State) : (s.enter i).dev = s.dev := by
  unfold State.enter; split <;> rfl

/-! ### Bytes and the latch -/

/-- Every turn still to come is spared. -/
abbrev State.turnsSpare (spares : EnvTurn → Prop) (s : State) : Prop := ∀ turn ∈ s.env, spares turn

section
variable {β : Type} {φ : Devices → β} {spares : EnvTurn → Prop} {i : Instr}

/-- A step keeps what of the devices neither the spared turns nor the command's own calls change. -/
theorem commandSteps_keeps_devices (hd : ∀ turn d, spares turn → φ (Devices.disturb d turn.others) = φ d)
    (hc : ∀ call d, MayIssue i call → φ (call.effect d) = φ d) {s : State} (hs : s.turnsSpare spares) :
    (commandSteps i s).state.turnsSpare spares ∧ φ (commandSteps i s).state.dev = φ s.dev := by
  cases commandSteps_shape i s with
  | ends u h _ _ dev env _ =>
    rw [h, Progress.state_halt, State.turnsSpare, env, dev]
    exact ⟨hs, rfl⟩
  | releases u _ h _ _ dev env =>
    rw [h, Progress.state_go, State.turnsSpare, env, dev]
    rcases s.interlude_cases with ⟨-, hi⟩ | ⟨ws, rest, he, hi⟩ <;> rw [hi]
    · exact ⟨hs, rfl⟩
    · rw [State.turnsSpare, he, List.forall_mem_cons] at hs
      exact ⟨hs.2, hd _ _ hs.1⟩
  | asks call k reacts issues resumes _ =>
    rw [resumes.step]
    rcases ask_cases call s with ⟨ws, rest, ⟨he, rfl, rfl⟩ | he, ha⟩ | ⟨a, rest, he, ha⟩ <;> rw [ha]
    · exact ⟨by simp [Ask.resume, State.turnsSpare], rfl⟩
    · rw [State.turnsSpare, he, List.forall_mem_cons] at hs
      exact ⟨hs.2, hd _ _ hs.1⟩
    · rw [State.turnsSpare, he, List.forall_mem_cons] at hs
      simp only [Ask.resume, State.turnsSpare, reacts.env]
      refine ⟨hs.2, ?_⟩
      obtain ⟨-, hdev | hdev, -⟩ := reacts.follows a (s.withBus none rest (s.dev.disturb a.others)) <;>
        refine (congrArg φ hdev).trans ?_
      · exact hd _ _ hs.1
      · exact (hc call _ issues).trans (hd _ _ hs.1)

/-- A command keeps what of the devices neither the spared turns nor its own calls change. -/
theorem exec_keeps_devices (hd : ∀ turn d, spares turn → φ (Devices.disturb d turn.others) = φ d)
    (hc : ∀ call d, MayIssue i call → φ (call.effect d) = φ d) {s t : State} (he : exec i s = .next t)
    (hs : s.turnsSpare spares) : φ t.dev = φ s.dev := by
  rcases exec_cases he with ⟨-, rfl⟩ | ⟨-, rfl⟩
  · have kept := runSteps_rel (fun s t => s.turnsSpare spares → t.turnsSpare spares ∧ φ t.dev = φ s.dev)
      (fun _ h => ⟨h, rfl⟩) (fun _ _ _ a b h => ⟨(b (a h).1).1, (b (a h).1).2.trans (a h).2⟩)
      (fun _ => commandSteps_keeps_devices hd hc) maxSteps (s.enter i)
    rw [State.turnsSpare, State.enter_env, State.enter_dev] at kept
    exact (kept hs).2
  · rfl

end

/-- A write elsewhere leaves the latch alone (R75). -/
theorem Devices.latch_write {d : Devices} {l : Loc} {v : Byte} (h : latches l v = false) :
    (d.write l v).att = d.att ∧ (d.write l v).everLatched = d.everLatched := by
  simp [latched, h]

/-- What others do not write to `OUT0` leaves the latch alone (R75). -/
theorem Devices.latch_disturb {ws : List (Loc × Byte)} (h : (ws.any fun w => w.1.key == Loc.out0.key) = false)
    (d : Devices) : ((d.disturb ws).att, (d.disturb ws).everLatched) = (d.att, d.everLatched) := by
  induction ws generalizing d with
  | nil => rfl
  | cons w ws ih =>
    simp only [List.any_cons, Bool.or_eq_false_iff, beq_eq_false_iff_ne] at h
    have hne : w.1 ≠ Loc.out0 := fun he => h.1 (congrArg Loc.key he)
    obtain ⟨ha, hb⟩ := Devices.latch_write (d := d) (latches_ne hne w.2)
    rw [Devices.disturb_cons, ih h.2, ha, hb]

/-- No other master touches a byte in a turn: the form in which `State.undisturbedAt` says so of every turn. -/
theorem State.undisturbedAt_iff {s : State} {key : Nat} :
    s.undisturbedAt key = true ↔ s.turnsSpare fun turn => turn.touches key = false := by
  simp [State.undisturbedAt, State.turnsSpare]

/-- Settles O58: turns that do not touch the byte, and calls that do not write or latch it, keep it at every step. -/
theorem commandsKeepEveryOtherByte : Obligations.CommandsKeepEveryOtherByte := by
  refine fun i s t he => ⟨fun key hk hu => ?_, fun hs ha hu => ?_⟩
  · refine exec_keeps_devices (φ := fun d => d.mem.get key) (fun turn d ht => Devices.get_disturb ht d)
      (fun call d hi => ?_) he (State.undisturbedAt_iff.mp hu)
    cases call with
    | write dev off val => exact Memory.get_set_ne (Ne.symm (hk _ hi.1)) val d.mem
    | read | gpioWrite | bootstrap | busAcquire | gpioAcquire => rfl
  · have latch := exec_keeps_devices (φ := fun d => (d.att, d.everLatched))
      (fun turn d ht => Devices.latch_disturb ht d) (fun call d hi => ?_) he (State.undisturbedAt_iff.mp hu)
    · simpa only [Prod.mk.injEq] using latch
    cases call with
    | write dev off val =>
      have hl : latches { dev := dev, off := off, idx := 0 } val = false := by
        refine Bool.eq_false_iff.mpr fun h => ?_
        rcases hi.2 h with ⟨ch, rfl⟩ | ⟨level, rfl⟩
        · exact hs ch rfl
        · exact ha level rfl
      obtain ⟨h1, h2⟩ := Devices.latch_write (d := d) hl
      exact Prod.ext h1 h2
    | read | gpioWrite | bootstrap | busAcquire | gpioAcquire => rfl

/-! ### Waiting -/

/-- A step that waits in a turn without an answer does, when it goes on, what it would have done had the writes of that
turn come just before the next one (R71, R271). -/
theorem resume_after_wait {i : Instr} {s : State} {call : Call} {k : Answer → State → Progress} (reacts : Reacts call k)
    (resumes : Resumes i s call k) (ws : List (Loc × Byte)) (late : List EnvTurn) :
    commandSteps i (s.withBus (some call) late (s.dev.disturb ws)) =
      commandSteps i (s.setEnv (precededBy ws late)) := by
  have hs : s.setEnv (precededBy ws late) = s.withBus s.inFlight (precededBy ws late) s.dev := rfl
  rw [hs, resumes, resumes]
  match late with
  | [] => rfl
  | .silent vs :: rest =>
    simp only [ask, precededBy, State.withBus, Devices.disturb_append]
  | .answer a :: rest =>
    simp only [ask, precededBy, State.withBus, Devices.disturb_append]
    exact (reacts.others a (ws ++ a.others) _).symm

/-- CLOSE never waits: its steps ask nothing (R138). -/
theorem exec_close_current {s t : State} (he : exec .close s = .next t) : t.current = none := by
  rcases exec_cases he with ⟨-, rfl⟩ | ⟨-, rfl⟩
  · refine runSteps_commandSteps (way := fun _ => True) (result := fun t => t.current = none) (fun _ _ _ _ => trivial)
      (fun s u _ h => ?_) trivial
    cases commandSteps_shape .close s with
    | ends v hv ended => exact Progress.halt.inj (hv.symm.trans h) ▸ ended.current
    | releases v _ hv => exact absurd (hv.symm.trans h) (by simp)
    | asks _ _ _ _ _ waits => exact (waits trivial).elim
  · rfl

/-- The first step of a run that waits asks. -/
theorem asks_of_waiting {i : Instr} (hi : i ≠ .close) {s : State} (hw : (run i s).current ≠ none) :
    ∃ call k, Reacts call k ∧ Resumes i s call k := by
  cases commandSteps_shape i s with
  | ends u h ended => exact absurd ended.current (by rwa [← run_halt h])
  | releases _ hc => exact absurd hc hi
  | asks call k reacts _ resumes _ => exact ⟨call, k, reacts, resumes⟩

/-- A run that waits, continued with the later turns, is the run in which the wait's writes come just before them. -/
theorem run_after_wait {i : Instr} (hi : i ≠ .close) {ws : List (Loc × Byte)} {late : List EnvTurn}
    (early : List Answer) (s : State) (he : s.env = early.map .answer ++ .silent ws :: late)
    (hw : (run i s).current ≠ none) :
    run i (run i s) = run i (s.setEnv (early.map .answer ++ precededBy ws late)) := by
  obtain ⟨call, k, reacts, resumes⟩ := asks_of_waiting hi hw
  have hk := resumes.step
  induction early generalizing s call k with
  | nil =>
    rw [ask_silent he] at hk
    rw [run_halt hk]
    exact run_congr (resume_after_wait reacts resumes ws late)
  | cons a early ih =>
    rw [ask_answer he] at hk
    let s' := s.withBus none (early.map .answer ++ .silent ws :: late) (s.dev.disturb a.others)
    change commandSteps i s = k a s' at hk
    have follows := reacts.follows a s'
    have env := reacts.env a s'
    cases hu : k a s' with
    | halt u =>
      rw [hu] at follows
      obtain ⟨-, -, ended⟩ := follows
      exact absurd ended.current (by rwa [← run_halt (hk.trans hu)])
    | go u =>
      rw [hu] at env
      have hgo : commandSteps i (s.setEnv (.answer a :: (early.map .answer ++ precededBy ws late))) =
          .go (u.setEnv (early.map .answer ++ precededBy ws late)) :=
        (resumes s.inFlight _ s.dev).trans ((reacts.setEnv a a.others s' _).trans (by rw [hu]; rfl))
      rw [run_go (hk.trans hu)] at hw ⊢
      rw [List.map_cons, List.cons_append, run_go hgo]
      obtain ⟨call', k', reacts', resumes'⟩ := asks_of_waiting hi hw
      exact ih u env hw call' k' reacts' resumes' resumes'.step

end Sys2Proof.Machine
end

section
/-! PROOFS. LIFECYCLE (R32), late answers (R271) and the return value of the engine commands (R34). -/

namespace Sys2Proof.Machine

/-! ### LIFECYCLE -/

/-- A step of OPEN leaves LIFECYCLE alone, or is its successful end (R130). -/
theorem openStep_lifecycle (revch : Byte) (s : State) :
    (openStep revch s).state.lifecycle = s.lifecycle ∨ ∃ rev, openStep revch s = .halt (s.opened rev).finish := by
  unfold openStep openSteps
  split
  · exact .inl rfl
  split
  · left
    rcases gpioBootstrap_cases s with ⟨_, _, _, e⟩ | ⟨_, _, _, e⟩ <;> rw [e] <;> rfl
  · left
    rcases busAcquire_cases s with ⟨_, _, _, e⟩ | ⟨_, _, _, _, e⟩ | ⟨_, _, _, _, e⟩ <;> rw [e] <;> rfl
  · left
    rcases gpioAcquire_cases s with ⟨_, _, _, e⟩ | ⟨_, _, _, _, e⟩ | ⟨_, _, _, _, e⟩ <;> rw [e] <;> rfl
  · exact .inr ⟨_, rfl⟩

/-- OPEN leaves LIFECYCLE alone, or takes it from Unopened to Opened and ends without error (R32). -/
theorem exec_open_lifecycle {revch : Byte} {s t : State} (he : exec (.openDev revch) s = .next t) :
    t.lifecycle = s.lifecycle ∨
      s.lifecycle = .unopened ∧ t.lifecycle = .opened ∧ t.current = none ∧ t.errKind = .noError := by
  rcases exec_cases he with ⟨hl, rfl⟩ | ⟨-, rfl⟩
  · change s.lifecycle = .unopened at hl
    have ended := runSteps_commandSteps (i := .openDev revch) (way := fun u => u.lifecycle = .unopened)
      (result := fun u =>
        u.lifecycle = .unopened ∨ u.lifecycle = .opened ∧ u.current = none ∧ u.errKind = .noError)
      (fun u v hu h => ?go) (fun u v hu h => ?halt) ((State.enter_lifecycle (.openDev revch) s).trans hl)
    · rw [hl]
      exact ended.imp_right fun h => ⟨rfl, h⟩
    all_goals
      change openStep revch u = _ at h
      rcases openStep_lifecycle revch u with hk | ⟨rev, hk⟩ <;> rw [h] at hk
    case go.inl => exact hk.trans hu
    case go.inr => cases hk
    case halt.inl => exact .inl (hk.trans hu)
    case halt.inr =>
      cases hk
      exact .inr ⟨rfl, rfl, rfl⟩
  · exact .inl rfl

/-- CLOSE leaves LIFECYCLE alone, or takes it from Opened to Closed (R32). -/
theorem exec_close_lifecycle {s t : State} (he : exec .close s = .next t) :
    t.lifecycle = s.lifecycle ∨ s.lifecycle = .opened ∧ t.lifecycle = .closed := by
  rcases exec_cases he with ⟨hl, rfl⟩ | ⟨-, rfl⟩
  · refine .inr ⟨hl, runSteps_commandSteps (i := .close) (way := fun _ => True)
      (result := fun u => u.lifecycle = .closed) (fun _ _ _ _ => trivial) (fun u v _ h => ?_) trivial⟩
    simp only [commandSteps, closeStep] at h
    split at h
    · cases h
    · cases h
    · cases h
      rfl
  · exact .inl rfl

/-- Every command leaves LIFECYCLE alone, but for a successful OPEN and for CLOSE (R32). -/
theorem exec_lifecycle {i : Instr} {s t : State} (he : exec i s = .next t) :
    t.lifecycle = s.lifecycle ∨
    ((∃ revch, i = .openDev revch) ∧ s.lifecycle = .unopened ∧ t.lifecycle = .opened ∧
      t.current = none ∧ t.errKind = .noError) ∨
    (i = .close ∧ s.lifecycle = .opened ∧ t.lifecycle = .closed) := by
  by_cases ho : ∃ revch, i = .openDev revch
  · obtain ⟨revch, rfl⟩ := ho
    exact (exec_open_lifecycle he).imp_right fun h => .inl ⟨⟨revch, rfl⟩, h⟩
  by_cases hc : i = .close
  · subst hc
    exact (exec_close_lifecycle he).imp_right fun h => .inr ⟨rfl, h⟩
  · have handle := exec_keeps_view he (blindTo_handle hc (not_exists.mp ho))
    exact .inl (congrArg Prod.fst handle)

/-- Settles O18: of a command it is `exec_lifecycle`; any other step but a reset leaves LIFECYCLE alone. -/
theorem lifecycleOnlyMovesForward : Obligations.LifecycleOnlyMovesForward := by
  refine ⟨fun i s t => exec_lifecycle, fun s t hreset hs => ?_⟩
  rcases step_cases hs with ⟨took, rest, hh, -⟩ | ⟨i, rest, hr, he⟩ | ⟨rest, -, rfl⟩ | ⟨_, _, _, rfl⟩
  · exact absurd hh (hreset took rest)
  · rcases exec_lifecycle he with h | ⟨⟨revch, rfl⟩, h⟩ | ⟨rfl, h⟩
    · exact .inl h
    · exact .inr (.inl ⟨⟨revch, hr⟩, h⟩)
    · exact .inr (.inr ⟨hr, h⟩)
  · exact .inl rfl
  · exact .inl rfl

/-! ### Late answers -/

/-- A command that waits is not CLOSE, and what waits was run from its start. -/
theorem exec_waiting {i : Instr} {s t : State} (he : exec i s = .next t) (ht : t.current = some i) :
    i ≠ .close ∧ s.lifecycle = gate i ∧ t = run i (s.enter i) := by
  refine ⟨?_, ?_⟩
  · rintro rfl
    exact absurd (exec_close_current he) (by simp [ht])
  · rcases exec_cases he with h | ⟨-, rfl⟩
    · exact h
    · cases ht

/-- A command that waits is still permitted. -/
theorem lifecycle_of_waiting {i : Instr} {s t : State} (he : exec i s = .next t) (ht : t.current = some i) :
    t.lifecycle = gate i := by
  obtain ⟨hi, hl, -⟩ := exec_waiting he ht
  rcases exec_lifecycle he with h | ⟨-, -, -, hc, -⟩ | ⟨hc, -⟩
  · exact h.trans hl
  · cases ht.symm.trans hc
  · exact absurd hc hi

/-- Settles O53: by induction on the answers that came before the wait, in `run_after_wait`. -/
theorem lateAnswersMakeNoDifference : Obligations.LateAnswersMakeNoDifference := by
  intro i s t early ws late hc hs he ht
  obtain ⟨hi, hl, hr⟩ := exec_waiting he ht
  rw [State.enter_idle hc] at hr
  let turns := early.map .answer ++ precededBy ws late
  calc exec i t = .next (run i t) := by rw [exec_permitted (lifecycle_of_waiting he ht), State.enter_busy ht]
    _ = .next (run i ((s.start i).setEnv turns)) := by
      rw [hr, run_after_wait hi early (s.start i) hs (by simp [← hr, ht])]
    _ = .next (run i ((s.setEnv turns).enter i)) := by
      rw [State.enter_idle (s := s.setEnv turns) hc]
      rfl
    _ = exec i (s.setEnv turns) := (exec_permitted (s := s.setEnv turns) hl).symm

/-! ### The return value -/

/-- The error fields of an engine command: no error, or TransportError with an OS code (R34). -/
def State.engineErrors (s : State) : Prop :=
  s.errKind = .noError ∨ s.errKind = .transportError ∧ ∃ e : OsCode, s.errCode = e.toWord

theorem State.engineErrors_of_control {s u : State} (h : u.control = s.control) (hs : s.engineErrors) :
    u.engineErrors := by
  simp only [State.control, Prod.mk.injEq] at h
  obtain ⟨-, -, hkind, hcode⟩ := h
  simpa only [State.engineErrors, hkind, hcode] using hs

theorem memWrite_engineErrors {s : State} (hs : s.engineErrors) (dev : DevAddr) (off val : Byte) :
    (memWrite dev off val s).state.engineErrors := by
  rcases memWrite_cases dev off val s with ⟨_, _, _, e⟩ | ⟨_, _, _, _, e⟩ | ⟨a, _, _, _, e⟩ <;> rw [e]
  · exact hs
  · exact hs
  · exact .inr ⟨rfl, a.code, rfl⟩

theorem memRead_engineErrors {s : State} (hs : s.engineErrors) (dev : DevAddr) (off : Byte) (len : ReadLen)
    {deliver : List Byte → State → State} (hd : ∀ bs, Computes (deliver bs)) :
    (memRead dev off len deliver s).state.engineErrors := by
  rcases memRead_cases dev off len deliver s with ⟨_, _, _, e⟩ | ⟨_, _, _, _, e⟩ | ⟨a, _, _, _, e⟩ <;> rw [e]
  · exact hs
  · exact State.engineErrors_of_control ((hd _).control _) hs
  · exact .inr ⟨rfl, a.code, rfl⟩

theorem andThen_engineErrors {g : State → State} (hg : Computes g) {p : Progress} (hp : p.state.engineErrors) :
    (p.andThen g).state.engineErrors := by
  cases p with
  | go u => exact State.engineErrors_of_control (hg.control u) hp
  | halt u => exact hp

/-- Both modes' steps (R170). -/
theorem modeStep_engineErrors {s : State} (hs : s.engineErrors) (pulseOn : Bool) :
    (modeStep pulseOn s).state.engineErrors := by
  unfold modeStep
  split
  · exact memRead_engineErrors hs _ _ _ (deliverMode_computes pulseOn)
  · exact memWrite_engineErrors hs ..
  · exact .inl rfl

/-- No step of an engine command records another error (R224). -/
theorem commandSteps_engineErrors {i : Instr} (hi : isEngine i = true) {s : State} (hs : s.engineErrors) :
    (commandSteps i s).state.engineErrors := by
  cases i with
  | openDev | close | enable | disable | enableDebug => cases hi
  | setPulse => exact modeStep_engineErrors hs true
  | setVco => exact modeStep_engineErrors hs false
  | setup =>
    simp only [commandSteps, setupStep]
    split
    · exact memWrite_engineErrors hs ..
    · exact memWrite_engineErrors hs ..
    · exact memWrite_engineErrors hs ..
    · exact memWrite_engineErrors hs ..
    · exact .inl rfl
  | select ch =>
    simp only [commandSteps, selectStep]
    split
    · exact memRead_engineErrors hs _ _ _ deliverV0_computes
    · exact andThen_engineErrors (afterReads_computes ch) (memRead_engineErrors hs _ _ _ deliverV1_computes)
    · exact andThen_engineErrors (editChannel_computes ch) (memWrite_engineErrors hs ..)
    · exact memWrite_engineErrors hs ..
    · exact memWrite_engineErrors hs ..
    · exact .inl rfl
  | setAtten level =>
    simp only [commandSteps, setAttenStep]
    split
    · exact memRead_engineErrors hs _ _ _ (deliverAtten_computes level)
    · exact memWrite_engineErrors hs ..
    · exact memWrite_engineErrors hs ..
    · exact memWrite_engineErrors hs ..
    · exact .inl rfl
  | readTemp wb =>
    simp only [commandSteps, readTempStep]
    split
    · exact memRead_engineErrors hs _ _ _ (deliverTemp_computes wb)
    · exact .inl rfl

/-- The 32-bit pattern of a negated OS code (R110). -/
theorem ofInt_neg_toNat {e : Nat} (h1 : 1 ≤ e) (h2 : e ≤ 2147483647) :
    (BitVec.ofInt 32 (-(e : Int))).toNat = 2 ^ 32 - e := by
  rw [BitVec.toNat_ofInt]
  omega

/-- Settles O50: an engine command records no error but TransportError, whose code is an OS code's. -/
theorem engineCommandReturnsZeroOrNegatedCode : Obligations.EngineCommandReturnsZeroOrNegatedCode := by
  intro i s t hi ⟨hc, hl⟩ he _
  rcases exec_cases he with ⟨-, rfl⟩ | ⟨hl', -⟩
  · rw [State.enter_idle hc]
    have kept : State.engineErrors (run i (s.start i)) :=
      runSteps_rel (fun s t => s.engineErrors → t.engineErrors) (fun _ h => h) (fun _ _ _ a b h => b (a h))
        (fun _ => commandSteps_engineErrors hi) maxSteps (s.start i) (.inl rfl)
    rcases kept with h | ⟨h, e, hcode⟩
    · exact .inl ⟨h, by rw [State.returnValue, h]⟩
    · have := e.pred.isLt
      refine .inr ⟨e.pred.val + 1, by omega, by omega, h, ?_, ofInt_neg_toNat (by omega) (by omega)⟩
      rw [State.returnValue, h, hcode, OsCode.toWord_toNat]
  · exact absurd hl hl'

end Sys2Proof.Machine
end

section
/-! PROOFS. The invariant between steps (R27, R32, R34, R144, R272), from a stronger one that holds at every step of a
command that runs. -/

namespace Sys2Proof.Machine

/-! ### Resources while a command runs -/

/-- The resources at each step of a running command: OPEN gains the bus at step 1 and the line at step 2, CLOSE gives up
the line at step 0 and the bus at step 1, every other command has both (R130, R138, R154). -/
def State.holds (s : State) : Instr → Prop
  | .openDev revch =>
    s.busOpen = decide (2 ≤ s.step.toNat) ∧ s.gpioOpen = decide (3 ≤ s.step.toNat) ∧
      (normalise revch = none → s.step.toNat = 0)
  | .close => s.busOpen = decide (s.step.toNat < 2) ∧ s.gpioOpen = decide (s.step.toNat < 1)
  | _ => s.busOpen = true ∧ s.gpioOpen = true

/-- At a step where it may wait, a command holds what the invariant says it holds. -/
theorem holds_iff_ownsWhile {i : Instr} {s : State} (hw : mayWaitAt s.rev s.step.toNat i) :
    s.holds i ↔ ownsWhile s i := by
  cases i with
  | openDev revch =>
    obtain ⟨hn, hstep⟩ := hw
    have h2 : decide (2 ≤ s.step.toNat) = decide (s.step.toNat = 2) := decide_eq_decide.mpr (by omega)
    have h3 : decide (3 ≤ s.step.toNat) = false := decide_eq_false (by omega)
    simp [State.holds, ownsWhile, hn, h2, h3]
  | close => exact hw.elim
  | enable | disable | setup | select | setPulse | setVco | setAtten | readTemp | enableDebug => exact Iff.rfl

theorem onPath_of_mayWaitAt {i : Instr} {s : State} (hw : mayWaitAt s.rev s.step.toNat i) : s.onPath i := by
  cases i with
  | select ch => exact hw.2
  | openDev | close | enable | disable | setup | setPulse | setVco | setAtten | readTemp | enableDebug => trivial

/-- OPEN apart, every command is permitted in Opened (R231). -/
theorem gate_eq_opened {i : Instr} (h : ∀ revch, i ≠ .openDev revch) : gate i = .opened := by
  cases i with
  | openDev revch => exact absurd rfl (h revch)
  | close | enable | disable | setup | select | setPulse | setVco | setAtten | readTemp | enableDebug => rfl

/-- OPEN and CLOSE apart, a command holds both resources throughout (R154). -/
theorem holds_iff_both {i : Instr} (hc : i ≠ .close) (ho : ∀ revch, i ≠ .openDev revch) (s : State) :
    s.holds i ↔ s.busOpen = true ∧ s.gpioOpen = true := by
  cases i with
  | openDev revch => exact absurd rfl (ho revch)
  | close => exact absurd rfl hc
  | enable | disable | setup | select | setPulse | setVco | setAtten | readTemp | enableDebug => exact Iff.rfl

/-- A step leaves the resources as the next step has them, or as LIFECYCLE says when the command ends. -/
def Progress.holdsAfter (i : Instr) : Progress → Prop
  | .go u => u.holds i
  | .halt u => u.current = none → u.resourcesMatch

/-- OPEN gains its resources one after the other and unwinds on failure (R130). -/
theorem openStep_holds {revch : Byte} {s : State} (hc : s.current ≠ none) (hl : s.lifecycle = .unopened)
    (hh : s.holds (.openDev revch)) : (openStep revch s).holdsAfter (.openDev revch) := by
  have hne : s.lifecycle ≠ .opened := by simp [hl]
  obtain ⟨hbus, hgpio, hzero⟩ := hh
  cases hn : normalise revch with
  | none =>
    rw [hzero hn] at hbus hgpio
    simp only [openStep, hn]
    exact fun _ => .inr ⟨hne, hbus, hgpio⟩
  | some rev =>
    simp only [openStep, hn, openSteps]
    match hk : s.step.toNat with
    | 0 =>
      rcases gpioBootstrap_cases s with ⟨_, _, _, e⟩ | ⟨_, _, _, e⟩ <;> simp only [e]
      · exact fun h => absurd h hc
      · simp [Progress.holdsAfter, State.holds, hn, hbus, hgpio, hk]
    | 1 =>
      rcases busAcquire_cases s with ⟨_, _, _, e⟩ | ⟨_, _, _, _, e⟩ | ⟨_, _, _, _, e⟩ <;> simp only [e]
      · exact fun h => absurd h hc
      · simp [Progress.holdsAfter, State.holds, hn, hgpio, hk]
      · exact fun _ => .inr ⟨hne, by simp [hbus, hk], by simp [hgpio, hk]⟩
    | 2 =>
      rcases gpioAcquire_cases s with ⟨_, _, _, e⟩ | ⟨_, _, _, _, e⟩ | ⟨_, _, _, _, e⟩ <;> simp only [e]
      · exact fun h => absurd h hc
      · simp [Progress.holdsAfter, State.holds, hn, hbus, hk]
      · exact fun _ => .inr ⟨hne, rfl, by simp [hgpio, hk]⟩
    | n + 3 => exact fun _ => .inl ⟨rfl, by simp [hbus, hk], by simp [hgpio, hk]⟩

/-- CLOSE gives up its resources one after the other (R138). -/
theorem closeStep_holds {s : State} (hh : s.holds .close) : (closeStep s).holdsAfter .close := by
  obtain ⟨hbus, hgpio⟩ := hh
  unfold closeStep
  match hk : s.step.toNat with
  | 0 => simp [gpioRelease, Progress.holdsAfter, State.holds, hbus, hk]
  | 1 => simp [busRelease, Progress.holdsAfter, State.holds, hgpio, hk]
  | n + 2 => exact fun _ => .inr ⟨by simp, by simp [hbus, hk], by simp [hgpio, hk]⟩

/-- Every step of every command keeps the resources and LIFECYCLE in step (R32, R144). -/
theorem commandSteps_holds {i : Instr} {s : State} (hc : s.current ≠ none) (hl : s.lifecycle = gate i)
    (hh : s.holds i) : (commandSteps i s).holdsAfter i := by
  by_cases ho : ∃ revch, i = .openDev revch
  · obtain ⟨revch, rfl⟩ := ho
    exact openStep_holds hc hl hh
  by_cases hclose : i = .close
  · subst hclose
    exact closeStep_holds hh
  · have ho := not_exists.mp ho
    have kept := commandSteps_keeps (blindTo_handle hclose ho) s
    obtain ⟨hbus, hgpio⟩ := (holds_iff_both hclose ho s).mp hh
    simp only [State.handle, Prod.mk.injEq, hl, hbus, hgpio, gate_eq_opened ho] at kept
    obtain ⟨hlife, hbus, hgpio, -⟩ := kept
    cases hp : commandSteps i s with
    | go u =>
      rw [hp] at hbus hgpio
      exact (holds_iff_both hclose ho u).mpr ⟨hbus, hgpio⟩
    | halt u =>
      rw [hp] at hlife hbus hgpio
      exact fun _ => .inl ⟨hlife, hbus, hgpio⟩

/-- On revision D SELECT goes from step 1 to step 3 (R181). -/
theorem selectStep_onPath {ch : Channel} {s u : State} (h : selectStep ch s = .go u) : u.onPath (.select ch) := by
  have hadv : (selectStep ch s).advancesFrom s.step.toNat := commandSteps_advances (.select ch) s
  rw [h] at hadv
  rintro ⟨hrev, hstep⟩
  match hk : s.step.toNat with
  | 0 =>
    simp only [selectStep, hk] at h
    rcases memRead_cases Config.expander0 Config.regOut .one deliverV0 s with
      ⟨_, _, _, e⟩ | ⟨_, _, _, _, e⟩ | ⟨_, _, _, _, e⟩ <;> rw [e] at h
    · cases h
    · obtain rfl := Progress.go.inj h
      simp [deliverV0, hk] at hstep
    · cases h
  | 1 =>
    simp only [selectStep, hk] at h
    rcases memRead_cases Config.expander1 Config.regOut .one deliverV1 s with
      ⟨_, _, _, e⟩ | ⟨_, _, _, _, e⟩ | ⟨_, _, _, _, e⟩ <;> rw [e] at h
    · cases h
    · obtain rfl := Progress.go.inj h
      cases hr : s.rev with
      | d => simp [afterReads, deliverV1, hr] at hstep
      | e => simp [afterReads, deliverV1, hr] at hrev
    · cases h
  | n + 2 =>
    obtain ⟨hlt, -⟩ := hadv
    omega

/-- A step of a running command leaves it on its path. -/
theorem commandSteps_onPath {i : Instr} {s u : State} (h : commandSteps i s = .go u) : u.onPath i := by
  cases i with
  | select ch => exact selectStep_onPath h
  | openDev | close | enable | disable | setup | setPulse | setVco | setAtten | readTemp | enableDebug => trivial

/-! ### The stronger invariant -/

/-- What holds at every step of a command that runs; a call may be in flight only where the command may wait. -/
structure Underway (i : Instr) (s : State) : Prop where
  memory : s.dev.mem.wf
  control : s.control = (some i, gate i, .noError, 0#32)
  flight : ¬mayWaitAt s.rev s.step.toNat i → s.inFlight = none
  holds : s.holds i
  onPath : s.onPath i

/-- A permitted command that starts on a consistent machine is under way (R37). -/
theorem underway_start {i : Instr} {s : State} (h : s.Consistent) (hc : s.current = none) (hl : s.lifecycle = gate i) :
    Underway i (s.start i) where
  memory := h.memory
  control := by rw [State.control, State.start_lifecycle, hl]; rfl
  flight _ := (h.idle hc).2
  holds := by
    rcases h.resources hc with ⟨ho, hbus, hgpio⟩ | ⟨ho, hbus, hgpio⟩
    · have hi : ∀ revch, i ≠ .openDev revch := by
        rintro revch rfl
        cases ho.symm.trans hl
      by_cases hclose : i = .close
      · subst hclose
        exact ⟨hbus, hgpio⟩
      · exact (holds_iff_both hclose hi _).mpr ⟨hbus, hgpio⟩
    · by_cases hi : ∃ revch, i = .openDev revch
      · obtain ⟨revch, rfl⟩ := hi
        exact ⟨hbus, hgpio, fun _ => rfl⟩
      · exact absurd (hl.trans (gate_eq_opened (not_exists.mp hi))) ho
  onPath := by
    cases i with
    | select ch => exact fun hp => absurd hp.2 (by simp)
    | openDev | close | enable | disable | setup | setPulse | setVco | setAtten | readTemp | enableDebug => trivial

/-- A command that waits on a consistent machine is under way. -/
theorem underway_resumed {i : Instr} {s : State} (h : s.Consistent) (hc : s.current = some i) : Underway i s := by
  obtain ⟨hl, -, herr, hw, ho⟩ := h.waiting i hc
  have hcode : s.errCode = 0#32 := by simpa [State.errorsMatch, herr] using h.errors
  exact {
    memory := h.memory
    control := by rw [State.control, hc, hl, herr, hcode]
    flight := absurd hw
    holds := (holds_iff_ownsWhile hw).mpr ho
    onPath := onPath_of_mayWaitAt hw }

/-- A machine whose command has ended is consistent. -/
theorem State.Ended.consistent {s : State} (h : s.Ended) (memory : s.dev.mem.wf) (inFlight : s.inFlight = none)
    (resources : s.resourcesMatch) : s.Consistent where
  memory := memory
  errors := h.errors
  idle _ := ⟨h.step, inFlight⟩
  resources _ := resources
  waiting i hc := by simp [h.current] at hc

/-- A step of a command under way leaves it under way, or leaves a consistent machine. -/
def Progress.consistent (i : Instr) : Progress → Prop
  | .go u => Underway i u
  | .halt u => u.Consistent

theorem Progress.follows_wf {call : Call} {s : State} {p : Progress} (h : p.follows call s) (hm : s.dev.mem.wf) :
    p.state.dev.mem.wf := by
  obtain ⟨-, hd | hd, -⟩ := h <;> rw [hd]
  · exact hm
  · exact Call.effect_wf hm call

theorem ownsWhile_withBus (i : Instr) (s : State) (inFlight : Option Call) (turns : List EnvTurn) (dev : Devices) :
    ownsWhile (s.withBus inFlight turns dev) i ↔ ownsWhile s i := by
  cases i <;> rfl

/-- A command that waits leaves a consistent machine. -/
theorem Underway.consistent_waiting {i : Instr} {s : State} (h : Underway i s) (hw : mayWaitAt s.rev s.step.toNat i)
    (call : Call) (turns : List EnvTurn) (ws : List (Loc × Byte)) :
    (s.withBus (some call) turns (s.dev.disturb ws)).Consistent := by
  have hc := h.control
  simp only [State.control, Prod.mk.injEq] at hc
  obtain ⟨hcur, hl, herr, hcode⟩ := hc
  exact {
    memory := Devices.disturb_wf h.memory ws
    errors := by simp [State.errorsMatch, State.withBus, herr, hcode]
    idle := fun hn => by simp [State.withBus, hcur] at hn
    resources := fun hn => by simp [State.withBus, hcur] at hn
    waiting := fun j hj => by
      obtain rfl : i = j := Option.some.inj (hcur.symm.trans hj)
      exact ⟨hl, by simp [State.withBus], herr, hw,
        (ownsWhile_withBus ..).mpr ((holds_iff_ownsWhile hw).mp h.holds)⟩ }

/-- Every step of a command under way leaves it under way, or leaves a consistent machine. -/
theorem commandSteps_consistent {i : Instr} {s : State} (h : Underway i s) : (commandSteps i s).consistent i := by
  have hc := h.control
  simp only [State.control, Prod.mk.injEq] at hc
  obtain ⟨hcur, hl, -⟩ := hc
  have holds := commandSteps_holds (by simp [hcur]) hl h.holds
  cases commandSteps_shape i s with
  | ends u hu ended inFlight dev _ last =>
    rw [hu] at holds ⊢
    exact ended.consistent (dev ▸ h.memory) (inFlight.trans (h.flight last)) (holds ended.current)
  | releases u hi hu control inFlight dev _ =>
    subst hi
    rw [hu] at holds ⊢
    exact {
      memory := by
        rw [dev, State.interlude_dev]
        exact Devices.disturb_wf h.memory _
      control := control.trans h.control
      flight := fun _ => inFlight.trans (h.flight id)
      holds := holds
      onPath := trivial }
  | asks call k reacts _ resumes waits =>
    have hk := resumes.step
    rcases ask_cases call s with ⟨ws, rest, -, ha⟩ | ⟨a, rest, he, ha⟩ <;> rw [ha] at hk
    · rw [hk]
      exact h.consistent_waiting (waits h.onPath) call rest ws
    · have follows := reacts.follows a (s.withBus none rest (s.dev.disturb a.others))
      have memory := Progress.follows_wf follows (Devices.disturb_wf h.memory a.others)
      change commandSteps i s = k a (s.withBus none rest (s.dev.disturb a.others)) at hk
      rw [← hk] at follows memory
      cases hu : commandSteps i s with
      | go u =>
        rw [hu] at holds follows memory
        obtain ⟨inFlight, -, control⟩ := follows
        exact {
          memory := memory
          control := control.trans h.control
          flight := fun _ => inFlight
          holds := holds
          onPath := commandSteps_onPath hu }
      | halt u =>
        rw [hu] at holds follows memory
        obtain ⟨inFlight, -, ended⟩ := follows
        exact ended.consistent memory inFlight (holds ended.current)

/-- A command that runs to its end or its wait leaves a consistent machine. -/
theorem Underway.run_consistent {i : Instr} {s : State} (h : Underway i s) : (run i s).Consistent := by
  refine runSteps_commandSteps (way := Underway i) (fun u v hu hv => ?_) (fun u v hu hv => ?_) h
  · have := commandSteps_consistent hu
    rwa [hv] at this
  · have := commandSteps_consistent hu
    rwa [hv] at this

/-- A command that ends in IllegalCommand or BadState leaves a consistent machine (R97, R231). -/
theorem consistent_raise {s : State} (h : s.Consistent) (hc : s.current = none) {k : ErrKind}
    (hk : ¬(k = .busOpenFailed ∨ k = .transportError)) : (s.markFault.raise k 0#32).Consistent :=
  State.Ended.consistent ⟨rfl, rfl, by simp [State.errorsMatch, hk]⟩ h.memory (h.idle hc).2 (h.resources hc)

/-- The invariant does not look at the host's side. -/
theorem consistent_host {s : State} (h : s.Consistent) (busIdx gpioPin : Word) (host : List HostAction) :
    State.Consistent { s with busIdx := busIdx, gpioPin := gpioPin, host := host } where
  memory := h.memory
  errors := h.errors
  idle := h.idle
  resources := h.resources
  waiting i hi := by
    obtain ⟨hl, hf, he, hw, ho⟩ := h.waiting i hi
    exact ⟨hl, hf, he, hw, by cases i <;> exact ho⟩

/-- A command executed on a consistent machine leaves a consistent machine. -/
theorem exec_consistent {i : Instr} {s t : State} (h : s.Consistent) (hr : s.current = none ∨ s.current = some i)
    (he : exec i s = .next t) : t.Consistent := by
  rcases exec_cases he with ⟨hl, rfl⟩ | ⟨hl, rfl⟩
  · rcases hr with hc | hc
    · rw [State.enter_idle hc]
      exact (underway_start h hc hl).run_consistent
    · rw [State.enter_busy hc]
      exact (underway_resumed h hc).run_consistent
  · rcases hr with hc | hc
    · exact consistent_raise h hc (by decide)
    · exact absurd (h.waiting i hc).1 hl

/-- The reset event leaves a consistent machine, also where it cuts a write short (R251, R253). -/
theorem resetEvent_consistent {s : State} (h : s.Consistent) (took : Bool) : (resetEvent took s).Consistent := by
  refine State.Ended.consistent ⟨rfl, rfl, rfl⟩ ?_ rfl (.inr ⟨by simp [resetEvent, State.reset], rfl, rfl⟩)
  change (cutShort took s).mem.wf
  unfold cutShort
  split
  · split
    · exact Call.effect_wf h.memory _
    · exact h.memory
  · exact h.memory

/-- Settles O59: by what a step can be; a command is under way from its start or its wait, and each of its steps keeps
that or leaves a consistent machine. -/
theorem stepKeepsTheMachineConsistent : Obligations.StepKeepsTheMachineConsistent := by
  intro s t h hs
  rcases step_cases hs with ⟨took, rest, -, rfl⟩ | ⟨i, rest, hr, he⟩ | ⟨rest, hc, rfl⟩ | ⟨busIdx, gpioPin, rest, rfl⟩
  · exact resetEvent_consistent (consistent_host h _ _ rest) took
  · exact exec_consistent (consistent_host h _ _ rest) (hr.symm.imp And.left id) he
  · exact consistent_raise (consistent_host h _ _ rest) hc (by decide)
  · exact consistent_host h busIdx gpioPin rest

end Sys2Proof.Machine
end

section
/-! PROOFS. Memory under transactions (R72 to R77): a failed one leaves old or new; SETUP and SET_ATTEN when all of theirs
succeed. -/

namespace Sys2Proof.Machine

/-! ### A transaction that fails -/

/-- A failed write leaves its register old or new, as the draw says (R77, R150). -/
theorem memWrite_fails {s : State} {a : Answer} {rest : List EnvTurn} (he : s.env = .answer a :: rest)
    (hok : a.ok = false) (dev : DevAddr) (off val : Byte) :
    memWrite dev off val s = .halt (((s.withBus none rest
      (if a.took then (s.dev.disturb a.others).write { dev := dev, off := off, idx := 0 } val
        else s.dev.disturb a.others)).noteFail (writeMessages dev off val) a.code a.failTrace).raise
          .transportError a.code.toWord) := by
  simp [memWrite, ask_answer he, hok, State.withBus]

/-- A failed read delivers nothing and changes no device (R77, R152). -/
theorem memRead_fails {s : State} {a : Answer} {rest : List EnvTurn} (he : s.env = .answer a :: rest)
    (hok : a.ok = false) (dev : DevAddr) (off : Byte) (len : ReadLen) (deliver : List Byte → State → State) :
    memRead dev off len deliver s = .halt (((s.withBus none rest (s.dev.disturb a.others)).noteFail
      (readMessages dev off len []) a.code a.failTrace).raise .transportError a.code.toWord) := by
  simp [memRead, ask_answer he, hok, State.withBus]

/-- Settles O47: the states in which `memWrite_fails` and `memRead_fails` stop, the write's device by the draw. -/
theorem failedTransactionOldOrNew : Obligations.FailedTransactionOldOrNew := by
  intro dev off val len deliver s a rest he hok
  refine ⟨⟨_, memWrite_fails he hok dev off val, rfl, rfl, rfl, fun took => ?old, fun took => ?new⟩,
    ⟨_, memRead_fails he hok dev off len deliver, rfl, rfl, rfl, rfl, rfl, rfl, rfl, rfl⟩⟩
  case old | new => simp [State.withBus, took]

/-! ### Transactions that succeed -/

/-- `s` after a write that succeeded with the answer `a`, the turns `rest` still to come (R150). -/
def State.wrote (a : Answer) (rest : List EnvTurn) (dev : DevAddr) (off val : Byte) (s : State) : State :=
  ((s.withBus none rest ((s.dev.disturb a.others).write { dev := dev, off := off, idx := 0 } val)).noteOk
    (writeMessages dev off val)).advance

/-- `s` after a read that succeeded with the answer `a`, the turns `rest` still to come (R152). -/
def State.fetched (a : Answer) (rest : List EnvTurn) (dev : DevAddr) (off : Byte) (len : ReadLen)
    (deliver : List Byte → State → State) (s : State) : State :=
  (deliver ((s.dev.disturb a.others).receive dev off len) ((s.withBus none rest (s.dev.disturb a.others)).noteOk
    (readMessages dev off len ((s.dev.disturb a.others).receive dev off len)))).advance

/-- A step of a command that writes, answered with success, begins the rest of the run. -/
theorem run_wrote {i : Instr} {s : State} {a : Answer} {rest : List EnvTurn} {dev : DevAddr} {off val : Byte}
    (h : commandSteps i s = memWrite dev off val s) (he : s.env = .answer a :: rest) (hok : a.ok = true) :
    run i s = run i (s.wrote a rest dev off val) :=
  run_go (h.trans (by simp [memWrite, ask_answer he, hok, State.wrote, State.withBus]))

/-- A step of a command that reads, answered with success, begins the rest of the run. -/
theorem run_fetched {i : Instr} {s : State} {a : Answer} {rest : List EnvTurn} {dev : DevAddr} {off : Byte}
    {len : ReadLen} {deliver : List Byte → State → State}
    (h : commandSteps i s = memRead dev off len deliver s) (he : s.env = .answer a :: rest) (hok : a.ok = true) :
    run i s = run i (s.fetched a rest dev off len deliver) :=
  run_go (h.trans (by simp [memRead, ask_answer he, hok, State.fetched, State.withBus]))

section
variable {s : State} {a0 a1 a2 a3 : Answer} {rest : List EnvTurn}

/-- A SETUP with four successful transactions is its four writes and its end (R166). -/
theorem exec_setup_succeeds (hr : s.readyFor .setup)
    (he : s.env = .answer a0 :: .answer a1 :: .answer a2 :: .answer a3 :: rest)
    (h0 : a0.ok = true) (h1 : a1.ok = true) (h2 : a2.ok = true) (h3 : a3.ok = true) :
    exec .setup s = .next
      (((((s.start .setup).wrote a0 (.answer a1 :: .answer a2 :: .answer a3 :: rest) 0x38#7 0x01#8 0x00#8).wrote
        a1 (.answer a2 :: .answer a3 :: rest) 0x38#7 0x03#8 0x00#8).wrote
        a2 (.answer a3 :: rest) 0x3F#7 0x01#8 0x00#8).wrote a3 rest 0x3F#7 0x03#8 0x00#8).finish := by
  rw [exec_permitted hr.2, State.enter_idle hr.1]
  refine congrArg Host.Outcome.next ?_
  refine (run_wrote (s := s.start .setup) rfl he h0).trans ?_
  refine (run_wrote rfl rfl h1).trans ?_
  refine (run_wrote rfl rfl h2).trans ?_
  refine (run_wrote rfl rfl h3).trans ?_
  exact run_halt rfl

/-- A SET_ATTEN with four successful transactions is its read, its three writes of the merged byte, load-enable set in
the second, and its end (R196, R201). -/
theorem exec_setAtten_succeeds {level : Int} (hr : s.readyFor (.setAtten level))
    (he : s.env = .answer a0 :: .answer a1 :: .answer a2 :: .answer a3 :: rest)
    (h0 : a0.ok = true) (h1 : a1.ok = true) (h2 : a2.ok = true) (h3 : a3.ok = true) {w : Byte}
    (hw : w = mergeAtten ((s.dev.disturb a0.others).read Loc.out0) (rev6 (complementLevel (clampLevel level)))) :
    exec (.setAtten level) s = .next
      (((((s.start (.setAtten level)).fetched a0 (.answer a1 :: .answer a2 :: .answer a3 :: rest) 0x38#7 0x01#8 .one
        (deliverAtten level)).wrote a1 (.answer a2 :: .answer a3 :: rest) 0x38#7 0x01#8 w).wrote
        a2 (.answer a3 :: rest) 0x38#7 0x01#8 (w ||| loadEnable)).wrote a3 rest 0x38#7 0x01#8 w).finish := by
  subst hw
  rw [exec_permitted hr.2, State.enter_idle hr.1]
  refine congrArg Host.Outcome.next ?_
  refine (run_fetched (s := s.start (.setAtten level)) rfl he h0).trans ?_
  refine (run_wrote rfl rfl h1).trans ?_
  refine (run_wrote rfl rfl h2).trans ?_
  refine (run_wrote rfl rfl h3).trans ?_
  exact run_halt rfl

end

/-! ### The devices after a transaction that succeeds -/

/-- What the attenuator has latched, and whether it has (R75). -/
def State.latch (s : State) : BitVec 6 × Bool := (s.dev.att, s.dev.everLatched)

theorem State.wrote_wf {s : State} (h : s.dev.mem.wf) {a : Answer} {rest : List EnvTurn} {dev : DevAddr}
    {off val : Byte} : (s.wrote a rest dev off val).dev.mem.wf :=
  Devices.write_wf (Devices.disturb_wf h _) _ _

theorem State.fetched_wf {s : State} (h : s.dev.mem.wf) {a : Answer} {rest : List EnvTurn} {dev : DevAddr}
    {off : Byte} {len : ReadLen} {deliver : List Byte → State → State} (hd : ∀ bs, Computes (deliver bs)) :
    (s.fetched a rest dev off len deliver).dev.mem.wf :=
  ((hd _).dev _).symm ▸ Devices.disturb_wf h a.others

section
variable {s : State} {a : Answer} {rest : List EnvTurn} {dev : DevAddr} {off val : Byte}

/-- A write that latches leaves its bits 7:2 latched, whatever came before (R75). -/
theorem State.wrote_latches (hl : latches { dev := dev, off := off, idx := 0 } val = true) :
    (s.wrote a rest dev off val).latch = (val.extractLsb' 2 6, true) :=
  Prod.ext (if_pos hl) (Bool.or_eq_true_iff.mpr (.inr hl))

variable (hs : (EnvTurn.answer a).sparesExpanders = true)
include hs

/-- A write that does not latch leaves the latch alone, when the other masters spare the expanders (R72, R75). -/
theorem State.wrote_keeps_latch (hl : latches { dev := dev, off := off, idx := 0 } val = false) :
    (s.wrote a rest dev off val).latch = s.latch := by
  obtain ⟨hatt, hever, -⟩ := Devices.disturb_spared hs s.dev
  obtain ⟨watt, wever⟩ := Devices.latch_write (d := s.dev.disturb a.others) hl
  exact Prod.ext (watt.trans hatt) (wever.trans hever)

/-- After a write that succeeds, a register of an expander holds the byte written to it, or what it held before, when
the other masters spare the expanders (R72). -/
theorem State.wrote_read (hm : s.dev.mem.wf) {l : Loc} (hl : l.dev = Config.expander0 ∨ l.dev = Config.expander1) :
    (s.wrote a rest dev off val).dev.read l =
      if l = { dev := dev, off := off, idx := 0 } then val else s.dev.read l := by
  obtain ⟨-, -, spared⟩ := Devices.disturb_spared hs s.dev
  change ((s.dev.disturb a.others).write _ val).read l = _
  split
  case isTrue h => rw [h, Devices.read_write_self (Devices.disturb_wf hm _)]
  case isFalse h => rw [Devices.read_write_ne h, spared l hl]

end

/-! ### SETUP -/

/-- A zero byte does not latch: load-enable is 0 in it (R75). -/
theorem latches_zero (l : Loc) : latches l 0x00#8 = false := by
  simp [latches]

/-- A pin whose configuration bit and output bit are both 0 is driven low (R74). -/
theorem Devices.pinLevel_of_zero {d : Devices} {expander : DevAddr}
    (hcfg : d.read { dev := expander, off := Config.regCfg, idx := 0 } = 0x00#8)
    (hout : d.read { dev := expander, off := Config.regOut, idx := 0 } = 0x00#8) (i : Nat) :
    d.pinLevel expander i = some false := by
  simp [Devices.pinLevel, hcfg, hout]

/-- Settles O30: each of the four registers holds the zero written to it, and a zero does not latch. -/
theorem setupDrivesEveryPinLow : Obligations.SetupDrivesEveryPinLow := by
  intro s a0 a1 a2 a3 rest hm hr he hall
  simp only [List.forall_mem_cons, List.not_mem_nil, false_imp_iff, implies_true, and_true] at hall
  obtain ⟨⟨h0, s0⟩, ⟨h1, s1⟩, ⟨h2, s2⟩, ⟨h3, s3⟩⟩ := hall
  have m0 : (s.start .setup).dev.mem.wf := hm
  refine ⟨_, exec_setup_succeeds hr he h0 h1 h2 h3, rfl, and_assoc.mp ⟨Prod.mk.inj ?latch, fun i _ =>
    ⟨Devices.pinLevel_of_zero ?cfg0 ?out0 i, Devices.pinLevel_of_zero ?cfg1 ?out1 i⟩⟩⟩
  case latch =>
    exact (State.wrote_keeps_latch (rest := rest) s3 (latches_zero _)).trans <|
      (State.wrote_keeps_latch s2 (latches_zero _)).trans <| (State.wrote_keeps_latch s1 (latches_zero _)).trans <|
      State.wrote_keeps_latch s0 (latches_zero _)
  case cfg0 | out0 | cfg1 | out1 =>
    simp [State.wrote_read s3 (State.wrote_wf (State.wrote_wf (State.wrote_wf m0))),
      State.wrote_read s2 (State.wrote_wf (State.wrote_wf m0)), State.wrote_read s1 (State.wrote_wf m0),
      State.wrote_read s0 m0]

/-! ### SET_ATTEN -/

/-- The fill and release bytes do not latch: load-enable is 0 in them (R201). -/
theorem latches_mergeAtten (l : Loc) (a : Byte) (r : BitVec 6) : latches l (mergeAtten a r) = false := by
  simp [latches, mergeAtten]

/-- A byte sent to `OUT0` with load-enable set latches (R75, R201). -/
theorem latches_loadEnable (v : Byte) : latches Loc.out0 (v ||| loadEnable) = true := by
  simp [latches, loadEnable]

/-- The latching byte has the code in bits 7:2: neither the switch bit nor load-enable reaches there (R200). -/
theorem extract_mergeAtten_loadEnable (a : Byte) (r : BitVec 6) :
    (mergeAtten a r ||| loadEnable).extractLsb' 2 6 = r := by
  have switch : (0x02#8).extractLsb' 2 6 = 0#6 := rfl
  have enable : loadEnable.extractLsb' 2 6 = 0#6 := rfl
  have code : (r.setWidth 8 <<< 2).extractLsb' 2 6 = r := by
    ext k hk
    have inside : 2 + k < 8 := by omega
    have above : ¬2 + k ≤ 1 := by omega
    simp [inside, above, BitVec.getLsbD_eq_getElem, hk]
  simp [mergeAtten, BitVec.extractLsb'_or, BitVec.extractLsb'_and, switch, enable, code]

/-- Settles O42: the release write leaves the merged byte, and of the three writes the second alone latches. -/
theorem setAttenLeavesTheCodeLatched : Obligations.SetAttenLeavesTheCodeLatched := by
  intro level s a0 a1 a2 a3 rest hm hr he hall
  simp only [List.forall_mem_cons, List.not_mem_nil, false_imp_iff, implies_true, and_true] at hall
  obtain ⟨⟨h0, s0⟩, ⟨h1, -⟩, ⟨h2, -⟩, ⟨h3, s3⟩⟩ := hall
  obtain ⟨-, -, spared⟩ := Devices.disturb_spared s0 s.dev
  have merged := congrArg (mergeAtten · (rev6 (complementLevel (clampLevel level)))) (spared Loc.out0 (.inl rfl)).symm
  have m0 : (s.start (.setAtten level)).dev.mem.wf := hm
  refine ⟨_, exec_setAtten_succeeds hr he h0 h1 h2 h3 merged, rfl, and_assoc.mp ⟨Prod.mk.inj ?latch, ?out0⟩⟩
  case latch =>
    have code := extract_mergeAtten_loadEnable (s.dev.read Loc.out0) (rev6 (complementLevel (clampLevel level)))
    exact (State.wrote_keeps_latch (rest := rest) s3 (latches_mergeAtten ..)).trans <|
      (State.wrote_latches (latches_loadEnable _)).trans <| congrArg (·, true) code
  case out0 =>
    refine (State.wrote_read (rest := rest) s3 ?_ (.inl rfl)).trans (if_pos rfl)
    exact State.wrote_wf (State.wrote_wf (State.fetched_wf m0 (deliverAtten_computes level)))

end Sys2Proof.Machine
end

section
/-! PROOFS. Command words: each format read back from its word and its word read back from it, the opcode table as the
decoder follows it, the word of no row, and a transaction on the wire. -/

namespace Sys2Proof

/-! ### What a decoder's answer says of the word -/

theorem checked_eq_ok {reservedZero : Bool} {i j : Instr} :
    checked reservedZero i = .ok j ↔ reservedZero = true ∧ i = j := by
  cases reservedZero <;> simp [checked]

/-- A word is put together from its opcode byte and its other 24 bits (R90). -/
theorem word_of_fields {w : Word} {n : Nat} {fields : BitVec 24} (ho : (opcode w).toNat = n)
    (hf : w.extractLsb' 0 24 = fields) : BitVec.ofNat 8 n ++ fields = w := by
  rw [← opcode_eq ho, ← hf, opcode_append]

section
variable {w : Word} {n : Nat} {j : Instr} (ho : (opcode w).toNat = n)
include ho

theorem word_of_decodeN {i : Instr} (h : decodeN w i = .ok j) : i = j ∧ wordN (BitVec.ofNat 8 n) = w := by
  obtain ⟨hz, hj⟩ := checked_eq_ok.mp h
  exact ⟨hj, word_of_fields ho (beq_iff_eq.mp hz)⟩

theorem word_of_decodeV (h : decodeV w = .ok j) :
    ∃ revch, .openDev revch = j ∧ BitVec.ofNat 8 n ++ (0#16 ++ revch) = w := by
  obtain ⟨hz, hj⟩ := checked_eq_ok.mp h
  exact ⟨_, hj, word_of_fields ho (by rw [← split_formatV, beq_iff_eq.mp hz])⟩

theorem word_of_decodeC (h : decodeC w = .ok j) :
    ∃ ch, .select ch = j ∧ BitVec.ofNat 8 n ++ (0#22 ++ ch.code) = w := by
  obtain ⟨hz, hj⟩ := checked_eq_ok.mp h
  exact ⟨_, hj, word_of_fields ho (by rw [← split_formatC, beq_iff_eq.mp hz, Channel.code_ofCode])⟩

theorem word_of_decodeF {i : Bool → Instr} (h : decodeF w i = .ok j) :
    ∃ flag, i flag = j ∧ wordF (BitVec.ofNat 8 n) flag = w := by
  obtain ⟨hz, hj⟩ := checked_eq_ok.mp h
  exact ⟨_, hj, word_of_fields ho (by rw [← split_formatF, beq_iff_eq.mp hz, extract_bit0])⟩

theorem word_of_decodeL (h : decodeL w = .ok j) :
    ∃ level : Int, levelFits level = true ∧ .setAtten level = j ∧
      BitVec.ofNat 8 n ++ (0#8 ++ BitVec.ofInt 16 level) = w := by
  obtain ⟨hz, hj⟩ := checked_eq_ok.mp h
  have low := BitVec.le_toInt (w.extractLsb' 0 16)
  have high := BitVec.toInt_lt (x := w.extractLsb' 0 16)
  refine ⟨_, ?_, hj, word_of_fields ho (by rw [← split_formatL, beq_iff_eq.mp hz, BitVec.ofInt_toInt])⟩
  simp only [levelFits, Bool.and_eq_true, decide_eq_true_eq]
  omega

end

/-- Settles O2: by the opcode, each format's decoder gives the fields from which its word is put together. -/
theorem encodeUndoesDecode : Obligations.EncodeUndoesDecode := by
  intro w i h
  rw [decode] at h
  split at h
  case h_1 ho =>
    obtain ⟨revch, rfl, hw⟩ := word_of_decodeV ho h
    exact ⟨rfl, hw⟩
  case h_2 ho | h_3 ho | h_4 ho | h_5 ho =>
    obtain ⟨rfl, hw⟩ := word_of_decodeN ho h
    exact ⟨rfl, hw⟩
  case h_6 ho =>
    obtain ⟨ch, rfl, hw⟩ := word_of_decodeC ho h
    exact ⟨rfl, hw⟩
  case h_7 ho =>
    obtain ⟨pulseOn, rfl, hw⟩ := word_of_decodeF ho h
    cases pulseOn <;> exact ⟨rfl, hw⟩
  case h_8 ho =>
    obtain ⟨level, hl, rfl, hw⟩ := word_of_decodeL ho h
    exact ⟨hl, hw⟩
  case h_9 ho | h_10 ho =>
    obtain ⟨flag, rfl, hw⟩ := word_of_decodeF ho h
    exact ⟨rfl, hw⟩
  case h_11 => cases h

/-! ### What a decoder answers for a format's word -/

@[simp] theorem opcode_word (opc : Byte) (fields : BitVec 24) : opcode (opc ++ fields) = opc :=
  BitVec.extractLsb'_append_eq_left

/-- A field inside the 24 bits below the opcode (R90). -/
theorem extract_word {lo n : Nat} (h : lo + n ≤ 24) (opc : Byte) (fields : BitVec 24) :
    (opc ++ fields).extractLsb' lo n = fields.extractLsb' lo n :=
  BitVec.extractLsb'_append_eq_of_add_le h

section
variable (opc : Byte)

theorem decodeN_word (i : Instr) : decodeN (wordN opc) i = .ok i := by
  have hz : (wordN opc).extractLsb' 0 24 = 0#24 := BitVec.extractLsb'_append_eq_right
  exact checked_eq_ok.mpr ⟨beq_iff_eq.mpr hz, rfl⟩

theorem decodeV_word (revch : Byte) : decodeV (opc ++ (0#16 ++ revch)) = .ok (.openDev revch) := by
  refine checked_eq_ok.mpr ⟨beq_iff_eq.mpr ?_, congrArg _ ?_⟩ <;> rw [extract_word (by decide)]
  · exact BitVec.extractLsb'_append_eq_left
  · exact BitVec.extractLsb'_append_eq_right

theorem decodeC_word (ch : Channel) : decodeC (opc ++ (0#22 ++ ch.code)) = .ok (.select ch) := by
  refine checked_eq_ok.mpr ⟨beq_iff_eq.mpr ?_, congrArg _ ?_⟩ <;> rw [extract_word (by decide)]
  · exact BitVec.extractLsb'_append_eq_left
  · rw [BitVec.extractLsb'_append_eq_right, Channel.ofCode_code]

theorem decodeF_word (i : Bool → Instr) (flag : Bool) : decodeF (wordF opc flag) i = .ok (i flag) := by
  refine checked_eq_ok.mpr ⟨beq_iff_eq.mpr ?_, congrArg _ ?_⟩
  · rw [wordF, extract_word (by decide)]
    exact BitVec.extractLsb'_append_eq_left
  · rw [wordF, BitVec.getLsbD_append, BitVec.getLsbD_append]
    simp

theorem decodeL_word {level : Int} (h : levelFits level = true) :
    decodeL (opc ++ (0#8 ++ BitVec.ofInt 16 level)) = .ok (.setAtten level) := by
  simp only [levelFits, Bool.and_eq_true, decide_eq_true_eq] at h
  refine checked_eq_ok.mpr ⟨beq_iff_eq.mpr ?_, congrArg _ ?_⟩ <;> rw [extract_word (by decide)]
  · exact BitVec.extractLsb'_append_eq_left
  · rw [BitVec.extractLsb'_append_eq_right]
    exact BitVec.toInt_ofInt_eq_self (by decide) (by omega) (by omega)

end

/-! ### The decoder at each opcode (R96) -/

section
variable {w : Word}

theorem decode_opcode01 (h : opcode w = 0x01#8) : decode w = decodeV w := by rw [decode, h]; rfl
theorem decode_opcode02 (h : opcode w = 0x02#8) : decode w = decodeN w .close := by rw [decode, h]; rfl
theorem decode_opcode03 (h : opcode w = 0x03#8) : decode w = decodeN w .enable := by rw [decode, h]; rfl
theorem decode_opcode04 (h : opcode w = 0x04#8) : decode w = decodeN w .disable := by rw [decode, h]; rfl
theorem decode_opcode05 (h : opcode w = 0x05#8) : decode w = decodeN w .setup := by rw [decode, h]; rfl
theorem decode_opcode06 (h : opcode w = 0x06#8) : decode w = decodeC w := by rw [decode, h]; rfl
theorem decode_opcode07 (h : opcode w = 0x07#8) :
    decode w = decodeF w (fun pulseOn => if pulseOn then .setPulse else .setVco) := by rw [decode, h]; rfl
theorem decode_opcode08 (h : opcode w = 0x08#8) : decode w = decodeL w := by rw [decode, h]; rfl
theorem decode_opcode09 (h : opcode w = 0x09#8) : decode w = decodeF w .readTemp := by rw [decode, h]; rfl
theorem decode_opcode0A (h : opcode w = 0x0A#8) : decode w = decodeF w .enableDebug := by rw [decode, h]; rfl

end

/-- Settles O1: the word's opcode leads to the format it was written in, which reads its operand back. -/
theorem decodeUndoesEncode : Obligations.DecodeUndoesEncode := by
  intro i hi
  cases i with
  | openDev revch => exact (decode_opcode01 (opcode_word ..)).trans (decodeV_word ..)
  | close => exact (decode_opcode02 (opcode_word ..)).trans (decodeN_word ..)
  | enable => exact (decode_opcode03 (opcode_word ..)).trans (decodeN_word ..)
  | disable => exact (decode_opcode04 (opcode_word ..)).trans (decodeN_word ..)
  | setup => exact (decode_opcode05 (opcode_word ..)).trans (decodeN_word ..)
  | select ch => exact (decode_opcode06 (opcode_word ..)).trans (decodeC_word ..)
  | setPulse => exact (decode_opcode07 (opcode_word ..)).trans (decodeF_word ..)
  | setVco => exact (decode_opcode07 (opcode_word ..)).trans (decodeF_word ..)
  | setAtten level => exact (decode_opcode08 (opcode_word ..)).trans (decodeL_word _ hi)
  | readTemp wb => exact (decode_opcode09 (opcode_word ..)).trans (decodeF_word ..)
  | enableDebug dbg => exact (decode_opcode0A (opcode_word ..)).trans (decodeF_word ..)

theorem decode_of_encode {i : Instr} {w : Word} (hi : i.wf = true) (hw : encode i = w) : decode w = .ok i :=
  hw ▸ decodeUndoesEncode i hi

/-- Settles O4: each of the words is its command's encoding. -/
theorem writtenOutWordsDecode : Obligations.WrittenOutWordsDecode :=
  ⟨decode_of_encode rfl rfl, decode_of_encode rfl rfl, decode_of_encode rfl rfl, decode_of_encode rfl rfl,
    decode_of_encode rfl rfl, decode_of_encode rfl (by decide), decode_of_encode rfl rfl, decode_of_encode rfl rfl⟩

/-! ### The opcode table -/

/-- What a row's mask leaves of a word whose reserved bits are zero: its opcode (R96). -/
theorem word_and_mask {hi lo : Nat} (opc : Byte) (operand : BitVec lo) :
    (opc ++ (0#hi ++ operand)) &&& (BitVec.allOnes 8 ++ (BitVec.allOnes hi ++ 0#lo)) = opc ++ (0#hi ++ 0#lo) := by
  simp only [BitVec.and_append, BitVec.and_allOnes, BitVec.and_zero]

/-- The row of a command's mnemonic selects its word (R96). -/
theorem exists_row_selects_encode (i : Instr) :
    ∃ row ∈ opcodeTable, row.selects (encode i) ∧ row.mnemonic = i.mnemonic := by
  cases i with
  | openDev revch => exact ⟨opcodeTable[0], List.getElem_mem _, word_and_mask (hi := 16) 0x01#8 revch, rfl⟩
  | close => exact ⟨opcodeTable[1], List.getElem_mem _, BitVec.and_allOnes, rfl⟩
  | enable => exact ⟨opcodeTable[2], List.getElem_mem _, BitVec.and_allOnes, rfl⟩
  | disable => exact ⟨opcodeTable[3], List.getElem_mem _, BitVec.and_allOnes, rfl⟩
  | setup => exact ⟨opcodeTable[4], List.getElem_mem _, BitVec.and_allOnes, rfl⟩
  | select ch => exact ⟨opcodeTable[5], List.getElem_mem _, word_and_mask (hi := 22) 0x06#8 ch.code, rfl⟩
  | setPulse => exact ⟨opcodeTable[6], List.getElem_mem _, BitVec.and_allOnes, rfl⟩
  | setVco => exact ⟨opcodeTable[7], List.getElem_mem _, BitVec.and_allOnes, rfl⟩
  | setAtten level =>
    exact ⟨opcodeTable[8], List.getElem_mem _, word_and_mask (hi := 8) 0x08#8 (BitVec.ofInt 16 level), rfl⟩
  | readTemp wb =>
    exact ⟨opcodeTable[9], List.getElem_mem _, word_and_mask (hi := 23) 0x09#8 (BitVec.ofBool wb), rfl⟩
  | enableDebug dbg =>
    exact ⟨opcodeTable[10], List.getElem_mem _, word_and_mask (hi := 23) 0x0A#8 (BitVec.ofBool dbg), rfl⟩

/-- At most one row selects a word (R96). -/
theorem OpcodeRow.selects_unique {row other : OpcodeRow} {w : Word} (hr : row ∈ opcodeTable) (ho : other ∈ opcodeTable)
    (h : row.selects w) (h' : other.selects w) : row = other := by
  refine opcodeTable_disjoint row hr other ho ?_
  rw [← h, ← h']
  ac_rfl

theorem exists_row_of_decode {w : Word} {i : Instr} (h : decode w = .ok i) :
    ∃ row ∈ opcodeTable, row.selects w ∧ row.mnemonic = i.mnemonic :=
  (encodeUndoesDecode w i h).2 ▸ exists_row_selects_encode i

/-- A row without an operand selects its command's word alone. -/
theorem decode_of_selects_value {row : OpcodeRow} {w : Word} (h : row.selects w) (hm : row.mask = BitVec.allOnes 32)
    {i : Instr} (hi : i.wf = true) (hv : encode i = row.value) : decode w = .ok i := by
  refine decode_of_encode hi ?_
  rw [hv, ← h, hm, BitVec.and_allOnes]

theorem opcode_of_selects {row : OpcodeRow} {w : Word} (h : row.selects w)
    (hm : row.mask.extractLsb' 24 8 = BitVec.allOnes 8) : opcode w = opcode row.value :=
  OpcodeRow.selects_extract h 24 8 hm

/-- Reserved bits that a row fixes to zero pass the decoder's check (R97). -/
theorem checked_of_selects {row : OpcodeRow} {w : Word} (h : row.selects w) {lo n : Nat} (i : Instr)
    (hm : row.mask.extractLsb' lo n = BitVec.allOnes n) (hz : row.value.extractLsb' lo n = 0#n) :
    checked (w.extractLsb' lo n == 0#n) i = .ok i :=
  checked_eq_ok.mpr ⟨beq_iff_eq.mpr ((OpcodeRow.selects_extract h lo n hm).trans hz), rfl⟩

/-- A word that a row selects is a command: the row fixes the opcode and the zeros of the reserved bits (R96, R97). -/
theorem decode_of_selects {row : OpcodeRow} {w : Word} (hr : row ∈ opcodeTable) (h : row.selects w) :
    ∃ i, decode w = .ok i := by
  simp only [opcodeTable, List.mem_cons, List.not_mem_nil, or_false] at hr
  obtain rfl | rfl | rfl | rfl | rfl | rfl | rfl | rfl | rfl | rfl | rfl := hr
  · exact ⟨_, (decode_opcode01 (opcode_of_selects h rfl)).trans (checked_of_selects h _ rfl rfl)⟩
  · exact ⟨.close, decode_of_selects_value h rfl rfl rfl⟩
  · exact ⟨.enable, decode_of_selects_value h rfl rfl rfl⟩
  · exact ⟨.disable, decode_of_selects_value h rfl rfl rfl⟩
  · exact ⟨.setup, decode_of_selects_value h rfl rfl rfl⟩
  · exact ⟨_, (decode_opcode06 (opcode_of_selects h rfl)).trans (checked_of_selects h _ rfl rfl)⟩
  · exact ⟨.setPulse, decode_of_selects_value h rfl rfl rfl⟩
  · exact ⟨.setVco, decode_of_selects_value h rfl rfl rfl⟩
  · exact ⟨_, (decode_opcode08 (opcode_of_selects h rfl)).trans (checked_of_selects h _ rfl rfl)⟩
  · exact ⟨_, (decode_opcode09 (opcode_of_selects h rfl)).trans (checked_of_selects h _ rfl rfl)⟩
  · exact ⟨_, (decode_opcode0A (opcode_of_selects h rfl)).trans (checked_of_selects h _ rfl rfl)⟩

/-- Settles O3: the row of the command's mnemonic selects the word and no other does; a selected word is a command. -/
theorem decodeFollowsOpcodeTable : Obligations.DecodeFollowsOpcodeTable := by
  refine ⟨fun w i hd => ?_, fun w e hd row hr h => ?_⟩
  · obtain ⟨row, hr, h, hn⟩ := exists_row_of_decode hd
    exact ⟨row, hr, h, hn, fun other ho h' => OpcodeRow.selects_unique ho hr h' h⟩
  · obtain ⟨i, hi⟩ := decode_of_selects hr h
    cases hd.symm.trans hi

end Sys2Proof

namespace Sys2Proof.Machine

/-! ### The word of no row -/

/-- A word that does not decode ends with IllegalCommand (R97). -/
theorem writeCmd_of_error {w : Word} {e : Reject} (h : decode w = .error e) (s : State) :
    writeCmd w s = .next (illegalCommand s) := by
  simp [writeCmd, h]

/-- Settles O6: the write is taken, and a word that decodes would be of some row. -/
theorem illegalWordEndsWithIllegalCommand : Obligations.IllegalWordEndsWithIllegalCommand := by
  intro s w rest hc hw hh
  rw [step_idle_write hc hh, hostWrite]
  cases hd : decode w with
  | ok i =>
    obtain ⟨row, hr, h, -⟩ := exists_row_of_decode hd
    exact absurd h (hw row hr)
  | error e =>
    rw [writeCmd_of_error hd, illegalCommand, State.markFault, State.raise, hc]

/-! ### A transaction on the wire -/

/-- Shape W (R102, R104). -/
theorem wire_writeMessages (dev : DevAddr) (off val : Byte) :
    wire (writeMessages dev off val) = [.start, .sent (dev ++ 0#1), .sent off, .sent val, .stop] := rfl

/-- Shape WR: the bytes received stand between the second address byte and STOP (R103, R104). -/
theorem wire_readMessages (dev : DevAddr) (off : Byte) (len : ReadLen) (received : List Byte) :
    wire (readMessages dev off len received) =
      [.start, .sent (dev ++ 0#1), .sent off, .repeatedStart, .sent (dev ++ 1#1)] ++ receivedBytes received ++
        [.stop] := by
  simp [wire, readMessages, Message.wire, addressByte]

/-- The bit sent at place `k` (R65). -/
theorem wireBits_getElem? (b : Byte) {k : Nat} (h : k < 8) : (wireBits b)[k]? = some (b.getLsbD (7 - k)) := by
  interval_cases k <;> rfl

/-- Settles O51: the two shapes; the address bytes by computation. -/
theorem transactionsOnTheWire : Obligations.TransactionsOnTheWire :=
  ⟨fun dev off val b0 b1 =>
      ⟨wire_writeMessages dev off val, wire_readMessages dev off .one [b0], wire_readMessages dev off .two [b0, b1]⟩,
    rfl, rfl, rfl, rfl, rfl, rfl, fun b _ h => wireBits_getElem? b h, ReadLen.count_admitted⟩

end Sys2Proof.Machine
end

section
/-! PROOFS. The handle commands OPEN, CLOSE, ENABLE, DISABLE and ENABLE_DEBUG (R130 to R143): what each step comes
to with its answer, and each command as the run of its steps. -/

namespace Sys2Proof.Machine

/-- A permitted command that starts is run from its start (R37). -/
theorem exec_readyFor {i : Instr} {s : State} (hr : s.readyFor i) : exec i s = .next (run i (s.start i)) := by
  obtain ⟨hc, hl⟩ := hr
  rw [exec_permitted hl, State.enter_idle hc]

/-! ### Revision normalisation (R92) -/

theorem normalise_d {revch : Byte} (h : revch ∈ [0x44#8, 0x64#8]) : normalise revch = some .d := by
  simp only [List.mem_cons, List.not_mem_nil, or_false] at h
  rcases h with rfl | rfl <;> rfl

theorem normalise_e {revch : Byte} (h : revch ∈ [0x00#8, 0x45#8, 0x65#8]) : normalise revch = some .e := by
  simp only [List.mem_cons, List.not_mem_nil, or_false] at h
  rcases h with rfl | rfl | rfl <;> rfl

theorem normalise_known {revch : Byte} (h : revch ∈ [0x00#8, 0x44#8, 0x45#8, 0x64#8, 0x65#8]) :
    ∃ rev, normalise revch = some rev := by
  simp only [List.mem_cons, List.not_mem_nil, or_false] at h
  rcases h with rfl | rfl | rfl | rfl | rfl <;> exact ⟨_, rfl⟩

/-! ### A failed OPEN (R130) -/

/-- What only a successful OPEN writes, and the two registers no OPEN writes. -/
def State.recorded (s : State) : BoardRev × Bool × Word × Word × EnLine × Word :=
  (s.rev, s.debug, s.handleBus, s.handlePin, s.en, s.temp)

/-- A step of OPEN leaves the handle's record alone, or is its successful end (R130). -/
theorem openStep_recorded (revch : Byte) (s : State) :
    (openStep revch s).state.recorded = s.recorded ∨ ∃ rev, openStep revch s = .halt (s.opened rev).finish := by
  unfold openStep openSteps
  split
  · exact .inl rfl
  split
  · left
    rcases gpioBootstrap_cases s with ⟨_, _, _, e⟩ | ⟨_, _, _, e⟩ <;> rw [e] <;> rfl
  · left
    rcases busAcquire_cases s with ⟨_, _, _, e⟩ | ⟨_, _, _, _, e⟩ | ⟨_, _, _, _, e⟩ <;> rw [e] <;> rfl
  · left
    rcases gpioAcquire_cases s with ⟨_, _, _, e⟩ | ⟨_, _, _, _, e⟩ | ⟨_, _, _, _, e⟩ <;> rw [e] <;> rfl
  · exact .inr ⟨_, rfl⟩

/-- A run of OPEN's steps leaves the handle's record alone, or ends without error (R130). -/
theorem run_open_recorded (revch : Byte) (s : State) :
    (run (.openDev revch) s).recorded = s.recorded ∨ (run (.openDev revch) s).errKind = .noError := by
  refine runSteps_commandSteps (i := .openDev revch) (way := fun u => u.recorded = s.recorded)
    (result := fun u => u.recorded = s.recorded ∨ u.errKind = .noError) (fun u v hu h => ?go)
    (fun u v hu h => ?halt) rfl
  all_goals
    change openStep revch u = _ at h
    rcases openStep_recorded revch u with hk | ⟨rev, hk⟩ <;> rw [h] at hk
  case go.inl => exact hk.trans hu
  case go.inr => cases hk
  case halt.inl => exact .inl (hk.trans hu)
  case halt.inr =>
    cases hk
    exact .inr rfl

theorem State.enter_recorded (i : Instr) (s : State) : (s.enter i).recorded = s.recorded := by
  unfold State.enter; split <;> rfl

/-- Settles O24: the record is left alone by every step but the successful end, so LIFECYCLE is still Unopened, and in a
consistent machine that says no resource is owned. -/
theorem openIsAllOrNothing : Obligations.OpenIsAllOrNothing := by
  intro revch s t hs hl hr he ht herr
  have lifecycle : t.lifecycle = .unopened := by
    rcases exec_open_lifecycle he with h | ⟨-, -, -, h⟩
    · exact h.trans hl
    · exact absurd h herr
  have recorded : t.recorded = s.recorded := by
    obtain rfl : run _ _ = t := Host.Outcome.next.inj ((exec_permitted hl).symm.trans he)
    exact ((run_open_recorded revch _).resolve_right herr).trans (State.enter_recorded _ s)
  simp only [State.recorded, Prod.mk.injEq] at recorded
  rcases (exec_consistent hs hr he).resources ht with ⟨h, -⟩ | ⟨-, busOpen, gpioOpen⟩
  · cases lifecycle.symm.trans h
  · exact ⟨busOpen, gpioOpen, lifecycle, recorded⟩

/-- Settles O20: the first step, before the bootstrap, is the end. -/
theorem openRejectsUnknownRevision : Obligations.OpenRejectsUnknownRevision := by
  intro revch s hr h00 h44 h45 h64 h65
  have unknown : normalise revch = none := by simp [normalise, h00, h44, h45, h64, h65]
  have step : commandSteps (.openDev revch) (s.start (.openDev revch)) =
      .halt ((s.start (.openDev revch)).raise .invalidRevision 0#32) := by
    simp only [commandSteps, openStep, unknown]
  rw [exec_readyFor hr, run_halt step]
  simp only [State.raise, State.start, hr.1]

/-! ### OPEN's steps with their answers -/

/-- `s` after the bootstrap, answered by `a` (R133). -/
def State.bootstrapped (a : Answer) (rest : List EnvTurn) (s : State) : State :=
  ((s.withBus none rest (s.dev.disturb a.others)).note (.bootstrap s.gpioPin)).advance

/-- `s` after a bus acquisition that succeeded with the answer `a` (R134). -/
def State.busAcquired (a : Answer) (rest : List EnvTurn) (s : State) : State :=
  ({ s.withBus none rest (s.dev.disturb a.others) with busOpen := true }.note (.busAcquire s.busIdx none)).advance

/-- `s` after an acquisition of the GPIO line that succeeded with the answer `a` (R135). -/
def State.gpioAcquired (a : Answer) (rest : List EnvTurn) (s : State) : State :=
  ({ s.withBus none rest (s.dev.disturb a.others) with gpioOpen := true }.note (.gpioAcquire s.gpioPin true)).advance

/-- OPEN's steps once the revision is known (R131, R132). -/
theorem commandSteps_open {revch : Byte} {rev : BoardRev} (hn : normalise revch = some rev) (s : State) :
    commandSteps (.openDev revch) s = openSteps rev s := by
  simp only [commandSteps, openStep, hn]

section
variable {revch : Byte} {rev : BoardRev} {s : State} {a : Answer} {rest : List EnvTurn}
  (hn : normalise revch = some rev) (he : s.env = .answer a :: rest)
include hn he

/-- At step 0 an OPEN of a known revision whose bootstrap is answered goes on, whatever the answer (R132, R133). -/
theorem run_bootstrapped (hk : s.step = 0#3) :
    run (.openDev revch) s = run (.openDev revch) (s.bootstrapped a rest) := by
  refine run_go ?_
  simp [commandSteps_open hn, openSteps, hk, gpioBootstrap, ask_answer he, State.bootstrapped, State.withBus]

/-- At step 1 an OPEN that acquires the bus goes on (R134). -/
theorem run_busAcquired (hk : s.step = 1#3) (hok : a.ok = true) :
    run (.openDev revch) s = run (.openDev revch) (s.busAcquired a rest) := by
  refine run_go ?_
  simp [commandSteps_open hn, openSteps, hk, busAcquire, ask_answer he, hok, State.busAcquired, State.withBus]

/-- At step 1 an OPEN that fails to acquire the bus ends in BusOpenFailed (R134). -/
theorem run_busRefused (hk : s.step = 1#3) (hok : a.ok = false) :
    run (.openDev revch) s = ((s.withBus none rest (s.dev.disturb a.others)).note
      (.busAcquire s.busIdx (some a.code))).raise .busOpenFailed a.code.toWord := by
  refine run_halt ?_
  simp [commandSteps_open hn, openSteps, hk, busAcquire, ask_answer he, hok, State.withBus]

/-- At step 2 an OPEN that acquires the GPIO line goes on (R135). -/
theorem run_gpioAcquired (hk : s.step = 2#3) (hok : a.ok = true) :
    run (.openDev revch) s = run (.openDev revch) (s.gpioAcquired a rest) := by
  refine run_go ?_
  simp [commandSteps_open hn, openSteps, hk, gpioAcquire, ask_answer he, hok, State.gpioAcquired, State.withBus]

/-- At step 2 an OPEN that fails to acquire the GPIO line releases the bus and ends in GpioOpenFailed (R135). -/
theorem run_gpioRefused (hk : s.step = 2#3) (hok : a.ok = false) :
    run (.openDev revch) s = (({ s.withBus none rest (s.dev.disturb a.others) with busOpen := false }.note
      (.gpioAcquire s.gpioPin false)).note (.busRelease s.busIdx)).raise .gpioOpenFailed 0#32 := by
  refine run_halt ?_
  simp [commandSteps_open hn, openSteps, hk, gpioAcquire, ask_answer he, hok, State.withBus]

end

/-- At step 3 an OPEN of a known revision ends in success (R136). -/
theorem run_opened {revch : Byte} {rev : BoardRev} (hn : normalise revch = some rev) {s : State} (hk : s.step = 3#3) :
    run (.openDev revch) s = (s.opened rev).finish := by
  refine run_halt ?_
  simp [commandSteps_open hn, openSteps, hk]

section
variable {revch : Byte} {rev : BoardRev} {s : State} {a0 a1 : Answer} {rest : List EnvTurn}
  (hr : s.readyFor (.openDev revch)) (hn : normalise revch = some rev)
include hr hn

/-- An OPEN of a known revision whose bootstrap is answered goes on to the bus acquisition (R132). -/
theorem exec_open_bootstrapped (he : s.env = .answer a0 :: rest) :
    exec (.openDev revch) s = .next (run (.openDev revch) ((s.start (.openDev revch)).bootstrapped a0 rest)) := by
  rw [exec_readyFor hr]
  exact congrArg _ (run_bootstrapped (s := s.start _) hn he rfl)

/-- An OPEN of a known revision that has acquired the bus goes on to the GPIO acquisition (R132). -/
theorem exec_open_busAcquired (he : s.env = .answer a0 :: .answer a1 :: rest) (h1 : a1.ok = true) :
    exec (.openDev revch) s = .next (run (.openDev revch)
      (((s.start (.openDev revch)).bootstrapped a0 (.answer a1 :: rest)).busAcquired a1 rest)) := by
  rw [exec_open_bootstrapped hr hn he]
  exact congrArg _ (run_busAcquired hn rfl rfl h1)

end

/-- Settles O21: the second step is the end. -/
theorem openReportsBusFailure : Obligations.OpenReportsBusFailure := by
  intro revch s a0 a1 rest hr hrev he h1
  obtain ⟨rev, hn⟩ := normalise_known hrev
  rw [exec_open_bootstrapped hr hn he]
  refine congrArg _ ((run_busRefused hn rfl rfl h1).trans ?_)
  simp [State.ended, State.raise, State.note, State.withBus, State.bootstrapped, State.advance, State.start, hr.1]

/-- Settles O22: the third step releases the bus and is the end. -/
theorem openReportsGpioFailure : Obligations.OpenReportsGpioFailure := by
  intro revch s a0 a1 a2 rest hr hrev he h1 h2
  obtain ⟨rev, hn⟩ := normalise_known hrev
  rw [exec_open_busAcquired hr hn he h1]
  refine congrArg _ ((run_gpioRefused hn rfl rfl h2).trans ?_)
  simp [State.ended, State.raise, State.note, State.withBus, State.bootstrapped, State.busAcquired, State.advance,
    State.start, hr.1]

/-- Settles O23: three steps that go on, then the successful end. -/
theorem openRecordsTheHandle : Obligations.OpenRecordsTheHandle := by
  intro revch rev s a0 a1 a2 rest hr hrev he h1 h2
  have hn : normalise revch = some rev := by
    rcases hrev with ⟨rfl, h⟩ | ⟨rfl, h⟩
    · exact normalise_d h
    · exact normalise_e h
  rw [exec_open_busAcquired hr hn he h1]
  refine congrArg _ ((run_gpioAcquired hn rfl rfl h2).trans ((run_opened hn rfl).trans ?_))
  simp [State.ended, State.opened, State.finish, State.note, State.withBus, State.bootstrapped, State.busAcquired,
    State.gpioAcquired, State.advance, State.start, hr.1]

/-! ### CLOSE -/

theorem State.interlude_of_not_silent {s : State} (h : ∀ ws rest, s.env ≠ .silent ws :: rest) : s.interlude = s := by
  rcases s.interlude_cases with ⟨-, hi⟩ | ⟨ws, rest, he, -⟩
  · exact hi
  · exact absurd he (h ws rest)

theorem State.interlude_of_silent {s : State} {ws : List (Loc × Byte)} {rest : List EnvTurn}
    (h : s.env = .silent ws :: rest) : s.interlude = { s with env := rest, dev := s.dev.disturb ws } := by
  simp [State.interlude, h]

/-- CLOSE is its two releases, the environment acting before each, and the end of the handle (R71, R138). -/
theorem exec_close_permitted {s : State} (hr : s.readyFor .close) :
    exec .close s = .next { s.interlude.interlude with
      lifecycle := .closed, busOpen := false, gpioOpen := false, en := .unknown,
      errKind := .noError, errCode := 0#32, step := 0#3,
      traffic := s.traffic ++ [.gpioRelease s.handlePin, .busRelease s.handleBus] } := by
  rw [exec_readyFor hr, run_go (i := .close) (s := s.start .close) rfl, run_go (i := .close) rfl,
    run_halt (i := .close) rfl]
  simp [State.finish, State.note, State.interlude, State.advance, State.start, hr.1]

/-- Settles O25: by the turns that `exec_close_permitted` finds before either release. -/
theorem closeReleasesEverything : Obligations.CloseReleasesEverything := by
  intro s hr
  refine ⟨fun hne => ?none, fun ws rest he hne => ?once, fun ws vs rest he => ?twice⟩ <;>
    rw [exec_close_permitted hr]
  case none => rw [State.interlude_of_not_silent hne, State.interlude_of_not_silent hne]
  case once => rw [State.interlude_of_silent he, State.interlude_of_not_silent hne]
  case twice => rw [State.interlude_of_silent he, State.interlude_of_silent rfl]

/-! ### ENABLE, DISABLE, ENABLE_DEBUG -/

section
variable {s : State} {a : Answer} {rest : List EnvTurn} {bytes : List Byte} (line : EnLine)
  (he : s.env = .answer a :: rest)
include he

/-- A `GpioWrite` accepted whole drives the line (R78, R79). -/
theorem gpioWrite_accepted (hn : acceptedCount a bytes.length = some bytes.length) :
    gpioWrite bytes line s = .go ({ s.withBus none rest (s.dev.disturb a.others) with en := line }.note
      (.gpioWrite s.handlePin bytes (acceptedCount a bytes.length))).advance := by
  simp only [gpioWrite, ask_answer he, if_pos hn, State.withBus]

/-- A `GpioWrite` that falls short leaves the line unknown and ends the command (R78, R225). -/
theorem gpioWrite_short (hn : acceptedCount a bytes.length ≠ some bytes.length) :
    gpioWrite bytes line s = .halt (({ s.withBus none rest (s.dev.disturb a.others) with en := .unknown }.note
      (.gpioWrite s.handlePin bytes (acceptedCount a bytes.length))).raise .gpioWriteFailed 0#32) := by
  simp only [gpioWrite, ask_answer he, if_neg hn, State.withBus]

end

/-- A command whose only step is a `GpioWrite` ends with the line driven if every byte is accepted, else with the line
unknown and GpioWriteFailed (R78, R79). -/
theorem exec_gpioWrite {i : Instr} {bytes : List Byte} {line : EnLine} {s : State} {a : Answer} {rest : List EnvTurn}
    (hr : s.readyFor i) (he : s.env = .answer a :: rest)
    (only : commandSteps i (s.start i) = gpioWrite bytes line (s.start i))
    (last : ∀ u : State, u.step = 1#3 → commandSteps i u = .halt u.finish) :
    (acceptedCount a bytes.length = some bytes.length →
      exec i s = .next { s.ended .noError 0#32 rest (s.dev.disturb a.others)
        [.gpioWrite s.handlePin bytes (acceptedCount a bytes.length)] [] with en := line }) ∧
    (acceptedCount a bytes.length ≠ some bytes.length →
      exec i s = .next { s.ended .gpioWriteFailed 0#32 rest (s.dev.disturb a.others)
        [.gpioWrite s.handlePin bytes (acceptedCount a bytes.length)] [] with en := .unknown }) := by
  refine ⟨fun hn => ?accepted, fun hn => ?short⟩ <;> rw [exec_readyFor hr] <;> refine congrArg _ ?_
  case accepted =>
    refine (run_go (only.trans (gpioWrite_accepted line he hn))).trans ((run_halt (last _ rfl)).trans ?_)
    simp [State.ended, State.finish, State.note, State.withBus, State.advance, State.start, hr.1]
  case short =>
    refine (run_halt (only.trans (gpioWrite_short line he hn))).trans ?_
    simp [State.ended, State.raise, State.note, State.withBus, State.start, hr.1]

/-- Settles O26: ENABLE's only step is the `GpioWrite` of its five bytes. -/
theorem enableDrivesTheLineHigh : Obligations.EnableDrivesTheLineHigh :=
  fun _ _ _ hr he => exec_gpioWrite (bytes := Config.literalHigh) hr he rfl
    fun u hu => by simp [commandSteps, enableStep, hu]

/-- Settles O27: DISABLE's only step is the `GpioWrite` of its four bytes. -/
theorem disableDrivesTheLineLow : Obligations.DisableDrivesTheLineLow :=
  fun _ _ _ hr he => exec_gpioWrite (bytes := Config.literalLow) hr he rfl
    fun u hu => by simp [commandSteps, disableStep, hu]

/-- Settles O28: ENABLE_DEBUG has no step before its end. -/
theorem enableDebugSetsTheFlag : Obligations.EnableDebugSetsTheFlag := by
  intro dbg s hr
  rw [exec_readyFor hr, run_halt (i := .enableDebug dbg) rfl]
  simp only [State.finish, State.start, hr.1]

end Sys2Proof.Machine
end

section
/-! PROOFS. Waiting for the first answer (R155), and the debug trace (R156): one walk over the steps says of each that
it does the same without the trace, and what it adds to it. -/

namespace Sys2Proof.Machine

/-! ### The first call -/

/-- The first step of a command that asks is its first call, with nothing done before it. -/
theorem commandSteps_start_asks {i : Instr} {s : State} {call : Call} (h : firstCall s i = some call) :
    ∃ k, commandSteps i (s.start i) = (ask call (s.start i)).resume k := by
  cases i with
  | openDev revch =>
    obtain ⟨rev, hn, rfl⟩ := Option.map_eq_some_iff.mp h
    exact ⟨_, (commandSteps_open hn _).trans (gpioBootstrap_asks _)⟩
  | close => nomatch h
  | enable => cases h; exact ⟨_, gpioWrite_asks ..⟩
  | disable => cases h; exact ⟨_, gpioWrite_asks ..⟩
  | setup => cases h; exact ⟨_, memWrite_asks ..⟩
  | select ch => cases h; exact ⟨_, memRead_asks ..⟩
  | setPulse => cases h; exact ⟨_, memRead_asks ..⟩
  | setVco => cases h; exact ⟨_, memRead_asks ..⟩
  | setAtten level => cases h; exact ⟨_, memRead_asks ..⟩
  | readTemp wb => cases h; exact ⟨_, memRead_asks ..⟩
  | enableDebug dbg => nomatch h

/-- Settles O52: the first step asks the first call, and a step that gets no answer halts with its call in flight. -/
theorem commandWaitsForItsFirstAnswer : Obligations.CommandWaitsForItsFirstAnswer := by
  intro i s call hr hcall
  obtain ⟨k, hk⟩ := commandSteps_start_asks hcall
  rw [exec_readyFor hr]
  refine ⟨fun he => congrArg _ (run_halt ?_), fun ws rest he => congrArg _ (run_halt ?_)⟩
  · rw [hk, ask_nil (s := s.start i) he]
    rfl
  · rw [hk, ask_silent (s := s.start i) he]
    rfl

/-! ### Local computation and the trace -/

theorem State.withoutTrace_step (s : State) : s.withoutTrace.step = s.step := rfl

/-- The state with another debug switch and another trace. -/
def State.setTrace (debug : Bool) (trace : List TraceRecord) (s : State) : State :=
  { s with debug := debug, trace := trace }

/-- The computation neither looks at the trace or its switch nor changes them. -/
def TraceFree (g : State → State) : Prop :=
  ∀ debug trace s, g (s.setTrace debug trace) = (g s).setTrace debug trace

theorem TraceFree.trace {g : State → State} (h : TraceFree g) (s : State) : (g s).trace = s.trace :=
  have eq : g s = (g s).setTrace s.debug s.trace := h s.debug s.trace s
  (congrArg State.trace eq :)

theorem TraceFree.debug {g : State → State} (h : TraceFree g) (s : State) : (g s).debug = s.debug :=
  have eq : g s = (g s).setTrace s.debug s.trace := h s.debug s.trace s
  (congrArg State.debug eq :)

/-- From states that differ in the trace alone, to states that differ in the trace alone. -/
theorem TraceFree.same {g : State → State} (h : TraceFree g) {s u : State} (hs : u.withoutTrace = s.withoutTrace) :
    (g u).withoutTrace = (g s).withoutTrace :=
  (h false [] u).symm.trans ((congrArg g hs).trans (h false [] s))

theorem afterReads_traceFree (ch : Channel) : TraceFree (afterReads ch) := by
  intro debug trace s
  simp only [afterReads, State.setTrace]
  split <;> rfl

/-! ### What a step does with the trace -/

/-- `t` keeps the records of `s`, and has no others if `DEBUG` was 0 (R156). -/
def State.Traces (s t : State) : Prop := s.trace <+: t.trace ∧ (s.debug = false → t.trace = s.trace)

theorem State.Traces.of_eq {s t : State} (h : t.trace = s.trace) : s.Traces t := ⟨h ▸ List.prefix_rfl, fun _ => h⟩

/-- The form in which a transaction is noted. -/
theorem State.Traces.of_note {s t : State} {shown : List TraceRecord}
    (h : t.trace = if s.debug then s.trace ++ shown else s.trace) : s.Traces t := by
  cases hd : s.debug with
  | false => exact .of_eq (h.trans (by simp [hd]))
  | true => exact ⟨⟨shown, by simp [h, hd]⟩, by simp [hd]⟩

theorem State.Traces.trans {s t u : State} (h : s.Traces t) (hd : t.debug = s.debug) (h' : t.Traces u) : s.Traces u :=
  ⟨h.1.trans h'.1, fun hs => (h'.2 (hd.trans hs)).trans (h.2 hs)⟩

/-- What a step from `s` comes to, and what it comes to with DEBUG off and no trace: both go on or both stop, in states
that differ in the trace alone; and the trace is only added to. A step that goes on keeps `DEBUG`. -/
inductive TracedStep (s : State) : Progress → Progress → Prop
  | go {t u : State} (same : u.withoutTrace = t.withoutTrace) (traces : s.Traces t) (debug : t.debug = s.debug) :
      TracedStep s (.go t) (.go u)
  | halt {t u : State} (same : u.withoutTrace = t.withoutTrace) (traces : s.Traces t) : TracedStep s (.halt t) (.halt u)

theorem TracedStep.andThen {s : State} {p q : Progress} (h : TracedStep s p q) {g : State → State} (hg : TraceFree g) :
    TracedStep s (p.andThen g) (q.andThen g) := by
  cases h with
  | go same traces debug =>
    exact .go (hg.same same) (traces.trans debug (.of_eq (hg.trace _))) ((hg.debug _).trans debug)
  | halt same traces => exact .halt same traces

/-- A step that asks: the wait is without trace, and the reaction to the answer starts with the trace as it was. -/
theorem TracedStep.of_ask {s : State} (call : Call) {k : Answer → State → Progress}
    (h : ∀ a env dev, TracedStep s (k a (s.withBus none env dev)) (k a (s.withBus none env dev).withoutTrace)) :
    TracedStep s ((ask call s).resume k) ((ask call s.withoutTrace).resume k) := by
  rcases he : s.env with _ | ⟨a | ws, rest⟩
  · rw [ask_nil he, ask_nil (s := s.withoutTrace) he]
    exact .halt rfl (.of_eq rfl)
  · rw [ask_answer he, ask_answer (s := s.withoutTrace) he]
    exact h a rest (s.dev.disturb a.others)
  · rw [ask_silent he, ask_silent (s := s.withoutTrace) he]
    exact .halt rfl (.of_eq rfl)

theorem memWrite_traced (dev : DevAddr) (off val : Byte) (s : State) :
    TracedStep s (memWrite dev off val s) (memWrite dev off val s.withoutTrace) := by
  rw [memWrite_asks, memWrite_asks dev off val s.withoutTrace]
  refine .of_ask _ fun a env d => ?_
  simp only [reaction, State.setEnv, State.withBus, State.withoutTrace, memWrite, ask]
  split
  · exact .go rfl (.of_note rfl) rfl
  · exact .halt rfl (.of_note rfl)

theorem noteOk_traced (msgs : List Message) (env : List EnvTurn) (dev : Devices) (s : State) :
    TracedStep s (.go ((s.withBus none env dev).noteOk msgs))
      (.go ((s.withBus none env dev).withoutTrace.noteOk msgs)) :=
  .go rfl (.of_note rfl) rfl

theorem memRead_traced (dev : DevAddr) (off : Byte) (len : ReadLen) {deliver : List Byte → State → State}
    (hd : ∀ bs, TraceFree (deliver bs)) (s : State) :
    TracedStep s (memRead dev off len deliver s) (memRead dev off len deliver s.withoutTrace) := by
  rw [memRead_asks, memRead_asks dev off len deliver s.withoutTrace]
  refine .of_ask _ fun a env d => ?_
  simp only [reaction, State.setEnv, State.withBus, State.withoutTrace, memRead, ask]
  split
  · have hg : TraceFree fun u => (deliver (d.receive dev off len) u).advance := fun debug trace u =>
      congrArg State.advance (hd _ debug trace u)
    exact (noteOk_traced (readMessages dev off len (d.receive dev off len)) env d s).andThen hg
  · exact .halt rfl (.of_note rfl)

theorem gpioWrite_traced (bytes : List Byte) (line : EnLine) (s : State) :
    TracedStep s (gpioWrite bytes line s) (gpioWrite bytes line s.withoutTrace) := by
  rw [gpioWrite_asks, gpioWrite_asks bytes line s.withoutTrace]
  refine .of_ask _ fun a env d => ?_
  simp only [reaction, State.setEnv, State.withBus, State.withoutTrace, gpioWrite, ask]
  split
  · exact .go rfl (.of_eq rfl) rfl
  · exact .halt rfl (.of_eq rfl)

theorem gpioBootstrap_traced (s : State) : TracedStep s (gpioBootstrap s) (gpioBootstrap s.withoutTrace) := by
  rw [gpioBootstrap_asks, gpioBootstrap_asks s.withoutTrace]
  exact .of_ask (.bootstrap s.gpioPin) fun a env d => .go rfl (.of_eq rfl) rfl

theorem busAcquire_traced (s : State) : TracedStep s (busAcquire s) (busAcquire s.withoutTrace) := by
  rw [busAcquire_asks, busAcquire_asks s.withoutTrace]
  refine .of_ask (.busAcquire s.busIdx) fun a env d => ?_
  simp only [reaction, State.setEnv, State.withBus, State.withoutTrace, busAcquire, ask]
  split
  · exact .go rfl (.of_eq rfl) rfl
  · exact .halt rfl (.of_eq rfl)

theorem gpioAcquire_traced (s : State) : TracedStep s (gpioAcquire s) (gpioAcquire s.withoutTrace) := by
  rw [gpioAcquire_asks, gpioAcquire_asks s.withoutTrace]
  refine .of_ask (.gpioAcquire s.gpioPin) fun a env d => ?_
  simp only [reaction, State.setEnv, State.withBus, State.withoutTrace, gpioAcquire, ask]
  split
  · exact .go rfl (.of_eq rfl) rfl
  · exact .halt rfl (.of_eq rfl)

theorem finish_traced (s : State) : TracedStep s (.halt s.finish) (.halt s.withoutTrace.finish) :=
  .halt rfl (.of_eq rfl)

/-- The steps of SET_PULSE and SET_VCO (R170). -/
theorem modeStep_traced (pulseOn : Bool) (s : State) :
    TracedStep s (modeStep pulseOn s) (modeStep pulseOn s.withoutTrace) := by
  match hk : s.step.toNat with
  | 0 =>
    simp only [modeStep, State.withoutTrace_step, hk]
    exact memRead_traced _ _ _ (fun _ _ _ _ => rfl) s
  | 1 =>
    simp only [modeStep, State.withoutTrace_step, hk]
    exact memWrite_traced ..
  | n + 2 =>
    simp only [modeStep, State.withoutTrace_step, hk]
    exact finish_traced s

/-- Every step of every command. -/
theorem commandSteps_traced (i : Instr) (s : State) :
    TracedStep s (commandSteps i s) (commandSteps i s.withoutTrace) := by
  obtain ⟨k, hk⟩ : ∃ k, s.step.toNat = k := ⟨_, rfl⟩
  cases i <;> simp only [commandSteps]
  case openDev revch =>
    unfold openStep
    split
    · exact .halt rfl (.of_eq rfl)
    simp only [openSteps, State.withoutTrace_step, hk]
    split
    · exact gpioBootstrap_traced s
    · exact busAcquire_traced s
    · exact gpioAcquire_traced s
    · exact .halt rfl (.of_eq rfl)
  case close =>
    simp only [closeStep, State.withoutTrace_step, hk]
    split
    · exact .go rfl (.of_eq rfl) rfl
    · exact .go rfl (.of_eq rfl) rfl
    · exact .halt rfl (.of_eq rfl)
  case enable =>
    simp only [enableStep, State.withoutTrace_step, hk]
    split
    · exact gpioWrite_traced ..
    · exact finish_traced s
  case disable =>
    simp only [disableStep, State.withoutTrace_step, hk]
    split
    · exact gpioWrite_traced ..
    · exact finish_traced s
  case setup =>
    simp only [setupStep, State.withoutTrace_step, hk]
    split
    · exact memWrite_traced ..
    · exact memWrite_traced ..
    · exact memWrite_traced ..
    · exact memWrite_traced ..
    · exact finish_traced s
  case select ch =>
    simp only [selectStep, State.withoutTrace_step, hk]
    split
    · exact memRead_traced _ _ _ (fun _ _ _ _ => rfl) s
    · exact (memRead_traced _ _ _ (fun _ _ _ _ => rfl) s).andThen (afterReads_traceFree ch)
    · exact (memWrite_traced ..).andThen fun _ _ _ => rfl
    · exact memWrite_traced ..
    · exact memWrite_traced ..
    · exact finish_traced s
  case setPulse => exact modeStep_traced true s
  case setVco => exact modeStep_traced false s
  case setAtten level =>
    simp only [setAttenStep, State.withoutTrace_step, hk]
    split
    · exact memRead_traced _ _ _ (fun _ _ _ _ => rfl) s
    · exact memWrite_traced ..
    · exact memWrite_traced ..
    · exact memWrite_traced ..
    · exact finish_traced s
  case readTemp wb =>
    simp only [readTempStep, State.withoutTrace_step, hk]
    split
    · exact memRead_traced _ _ _ (fun _ _ _ _ => rfl) s
    · exact finish_traced s
  case enableDebug dbg => exact .halt rfl (.of_eq rfl)

/-! ### What a command does with the trace -/

/-- Steps that are the same without the trace make runs that are. -/
theorem runSteps_traced {f : State → Progress} (h : ∀ s, TracedStep s (f s) (f s.withoutTrace)) (n : Nat) (s : State) :
    (runSteps n f s.withoutTrace).withoutTrace = (runSteps n f s).withoutTrace ∧ s.Traces (runSteps n f s) := by
  induction n generalizing s with
  | zero => exact ⟨rfl, .of_eq rfl⟩
  | succ n ih =>
    have hs := h s
    cases hp : f s <;> cases hq : f s.withoutTrace <;> rw [hp, hq] at hs
    case go.go t u =>
      rw [runSteps_go hp, runSteps_go hq]
      cases hs with
      | go same traces debug =>
        refine ⟨?_, traces.trans debug (ih t).2⟩
        calc (runSteps n f u).withoutTrace
          _ = (runSteps n f u.withoutTrace).withoutTrace := (ih u).1.symm
          _ = (runSteps n f t.withoutTrace).withoutTrace := by rw [same]
          _ = (runSteps n f t).withoutTrace := (ih t).1
    case halt.halt t u =>
      rw [runSteps_halt hp, runSteps_halt hq]
      cases hs with
      | halt same traces => exact ⟨same, traces⟩
    case go.halt | halt.go => nomatch hs

theorem State.enter_traceFree (i : Instr) : TraceFree (State.enter i) := by
  intro debug trace s
  cases hc : s.current with
  | none =>
    rw [State.enter_idle hc, State.enter_idle (s := s.setTrace debug trace) hc]
    rfl
  | some j => rw [State.enter_busy hc, State.enter_busy (s := s.setTrace debug trace) hc]

/-- A command does the same without the trace, and only adds to it. -/
theorem exec_traced {i : Instr} {s t : State} (he : exec i s = .next t) :
    (∃ u, exec i s.withoutTrace = .next u ∧ u.withoutTrace = t.withoutTrace) ∧ s.Traces t := by
  rcases exec_cases he with ⟨hl, rfl⟩ | ⟨hl, rfl⟩
  · have enters := State.enter_traceFree i
    have hs : s.withoutTrace.enter i = (s.enter i).withoutTrace := enters false [] s
    obtain ⟨same, traces⟩ := runSteps_traced (commandSteps_traced i) maxSteps (s.enter i)
    refine ⟨⟨_, exec_permitted hl, ?_⟩, (State.Traces.of_eq (enters.trace s)).trans (enters.debug s) traces⟩
    rw [hs]
    exact same
  · exact ⟨⟨_, exec_forbidden hl, rfl⟩, .of_eq rfl⟩

/-- Settles O54: every step does the same without the trace, so the command does. -/
theorem debugTraceHasNoEffect : Obligations.DebugTraceHasNoEffect :=
  fun _ _ _ he => (exec_traced he).1

/-- Settles O55: every step only adds to the trace, and nothing with `DEBUG = 0`. -/
theorem nothingIsTracedWithDebugOff : Obligations.NothingIsTracedWithDebugOff := by
  intro i s t he
  obtain ⟨-, ⟨shown, added⟩, silent⟩ := exec_traced he
  exact ⟨silent, shown, added.symm⟩

end Sys2Proof.Machine
end

section
/-! PROOFS. The engine commands as runs of transactions (R165): what each step issues, a run of successes, and the end
at the first failure (R224, R226). -/

namespace Sys2Proof.Machine

/-! ### What a transaction leads to -/

/-- `u` is `s` after `n` transactions that succeeded: they are the traffic added, and the same command goes on with the
same handle (R165). -/
structure State.Issued (n : Nat) (s u : State) : Prop where
  current : u.current = s.current
  handle : u.handle = s.handle
  traffic : ∃ sent, u.traffic = s.traffic ++ sent ∧ sent.length = n ∧
    ∀ entry ∈ sent, ∃ m, entry = .i2c s.handleBus m none

theorem State.Issued.rev {n : Nat} {s u : State} (h : s.Issued n u) : u.rev = s.rev :=
  congrArg (·.2.2.2.1) h.handle

theorem State.Issued.lifecycle {n : Nat} {s u : State} (h : s.Issued n u) : u.lifecycle = s.lifecycle :=
  congrArg (·.1) h.handle

theorem State.Issued.handleBus {n : Nat} {s u : State} (h : s.Issued n u) : u.handleBus = s.handleBus :=
  congrArg (·.2.2.2.2.1) h.handle

theorem State.Issued.refl (s : State) : s.Issued 0 s :=
  ⟨rfl, rfl, [], by simp, rfl, by simp⟩

theorem State.Issued.trans {n m : Nat} {s t u : State} (h : s.Issued n t) (h' : t.Issued m u) :
    s.Issued (n + m) u := by
  obtain ⟨sent, ht, hn, hall⟩ := h.traffic
  obtain ⟨sent', hu, hm, hall'⟩ := h'.traffic
  rw [h.handleBus] at hall'
  refine ⟨h'.current.trans h.current, h'.handle.trans h.handle, sent ++ sent', ?_, ?_, ?_⟩
  · rw [hu, ht, List.append_assoc]
  · rw [List.length_append, hn, hm]
  · exact List.forall_mem_append.mpr ⟨hall, hall'⟩

/-- `s` after the transport call `call` has failed with the answer `a`, the turns `rest` still to come (R77, R224). -/
def State.failed (call : Call) (a : Answer) (rest : List EnvTurn) (s : State) : State :=
  ((s.withBus none rest (if a.took then call.effect (s.dev.disturb a.others) else s.dev.disturb a.others)).noteFail
    call.messages a.code a.failTrace).raise .transportError a.code.toWord

/-- A write that succeeds (R150). -/
theorem memWrite_succeeds {s : State} {a : Answer} {rest : List EnvTurn} (he : s.env = .answer a :: rest)
    (hok : a.ok = true) (dev : DevAddr) (off val : Byte) :
    memWrite dev off val s = .go (s.wrote a rest dev off val) := by
  simp [memWrite, ask_answer he, hok, State.wrote, State.withBus]

/-- A read that succeeds (R152). -/
theorem memRead_succeeds {s : State} {a : Answer} {rest : List EnvTurn} (he : s.env = .answer a :: rest)
    (hok : a.ok = true) (dev : DevAddr) (off : Byte) (len : ReadLen) (deliver : List Byte → State → State) :
    memRead dev off len deliver s = .go (s.fetched a rest dev off len deliver) := by
  simp [memRead, ask_answer he, hok, State.fetched, State.withBus]

theorem State.wrote_step {s : State} {k : Nat} (hk : s.step.toNat = k) (h : k < 5) (a : Answer) (rest : List EnvTurn)
    (dev : DevAddr) (off val : Byte) : (s.wrote a rest dev off val).step.toNat = k + 1 := by
  subst hk
  exact State.advance_step_toNat h

/-- `f` is a step that issues the transport call `call` from `s`: it waits without an answer, goes on to `STEP = next`
when the call succeeds, whatever turns come later, and ends in `State.failed` when it fails. -/
structure Transacts (f : State → Progress) (s : State) (call : Call) (next : Nat) : Prop where
  waits : f (s.setEnv []) = .halt (s.withBus (some call) [] s.dev)
  succeeds : ∀ a, a.ok = true → ∃ u, (∀ late, f (s.setEnv (.answer a :: late)) = .go (u.setEnv late)) ∧
    s.Issued 1 u ∧ u.step.toNat = next
  fails : ∀ a rest, a.ok = false → f (s.setEnv (.answer a :: rest)) = .halt (s.failed call a rest)

theorem Transacts.congr {f g : State → Progress} {s : State} {call : Call} {next : Nat} (h : Transacts f s call next)
    (hg : ∀ env, g (s.setEnv env) = f (s.setEnv env)) : Transacts g s call next where
  waits := (hg _).trans h.waits
  succeeds a hok := by simpa only [hg] using h.succeeds a hok
  fails a rest hok := (hg _).trans (h.fails a rest hok)

/-- What a local computation of the sequencer must leave alone for a run of transactions to go on. -/
structure Bystands (g : State → State) : Prop extends Computes g where
  handle : ∀ s, (g s).handle = s.handle
  traffic : ∀ s, (g s).traffic = s.traffic

theorem Bystands.issued {g : State → State} (hg : Bystands g) {n : Nat} {s u : State} (h : s.Issued n u) :
    s.Issued n (g u) where
  current := (congrArg Prod.fst (hg.control u)).trans h.current
  handle := (hg.handle u).trans h.handle
  traffic := by simpa only [hg.traffic] using h.traffic

theorem advance_bystands : Bystands State.advance :=
  ⟨⟨fun _ => rfl, fun _ => rfl, fun _ => rfl, fun _ _ => rfl⟩, fun _ => rfl, fun _ => rfl⟩

/-- The note of a transaction that succeeded, with whatever came of it on the bus. -/
theorem State.issued_noteOk (env : List EnvTurn) (dev : Devices) (msgs : List Message) (s : State) :
    s.Issued 1 ((s.withBus none env dev).noteOk msgs) where
  current := rfl
  handle := rfl
  traffic := ⟨[.i2c s.handleBus msgs none], rfl, rfl, by simp⟩

/-- Local computation after a transaction: it may choose the next step (R181). -/
theorem Transacts.andThen {f : State → Progress} {s : State} {call : Call} {next next' : Nat}
    (h : Transacts f s call next) {g : State → State} (hg : Bystands g)
    (hn : ∀ u : State, u.rev = s.rev → u.step.toNat = next → (g u).step.toNat = next') :
    Transacts (fun u => (f u).andThen g) s call next' where
  waits := by rw [h.waits, Progress.andThen_halt]
  succeeds a hok := by
    obtain ⟨u, hf, issued, step⟩ := h.succeeds a hok
    exact ⟨g u, fun late => by rw [hf, Progress.andThen_go, hg.setEnv], hg.issued issued, hn u issued.rev step⟩
  fails a rest hok := by rw [h.fails a rest hok, Progress.andThen_halt]

section
variable {s : State} {k : Nat} (hk : s.step.toNat = k) (h : k < 5) (dev : DevAddr) (off : Byte)
include hk h

theorem memWrite_transacts (val : Byte) : Transacts (memWrite dev off val) s (.write dev off val) (k + 1) where
  waits := by rw [memWrite_asks, ask_nil rfl]; rfl
  succeeds a hok :=
    ⟨s.wrote a [] dev off val, fun _ => memWrite_succeeds (s := s.setEnv _) rfl hok dev off val,
      advance_bystands.issued (s.issued_noteOk ..), State.wrote_step hk h ..⟩
  fails _ _ hok := memWrite_fails (s := s.setEnv _) rfl hok dev off val

theorem memRead_transacts (len : ReadLen) {deliver : List Byte → State → State} (hd : ∀ bs, Bystands (deliver bs))
    (hs : ∀ bs u, (deliver bs u).step = u.step) :
    Transacts (memRead dev off len deliver) s (.read dev off len) (k + 1) where
  waits := by rw [memRead_asks, ask_nil rfl]; rfl
  succeeds a hok := by
    refine ⟨s.fetched a [] dev off len deliver, fun late => ?_,
      advance_bystands.issued ((hd _).issued (s.issued_noteOk ..)), ?_⟩
    · refine (memRead_succeeds (s := s.setEnv _) rfl hok dev off len deliver).trans ?_
      exact congrArg (fun u : State => Progress.go u.advance)
        ((hd _).setEnv ((s.withBus none [] (s.dev.disturb a.others)).noteOk _) late)
    · subst hk
      rw [State.fetched, State.advance_step, hs]
      exact State.advance_step_toNat h
  fails a rest hok := by
    refine (memRead_fails (s := s.setEnv _) rfl hok dev off len deliver).trans ?_
    simp [State.failed, Call.messages, Call.effect, State.setEnv, State.withBus]

end

/-! ### The steps of the engine commands -/

/-- How many transactions an engine command has behind it at a `STEP`: SELECT skips step 2 on revision D (R165,
R181). -/
def transacted (rev : BoardRev) (step : Nat) : Instr → Nat
  | .select _ => if rev = .d ∧ 2 < step then step - 1 else step
  | _ => step

theorem transacted_zero (rev : BoardRev) (i : Instr) : transacted rev 0 i = 0 := by
  cases i <;> simp [transacted]

/-- At `STEP = k` the command issues the next call of its step list (R165). -/
def State.transactsAt (k : Nat) (i : Instr) (s : State) : Prop :=
  ∃ call next, Transacts (commandSteps i) s call next ∧
    call.target = (transportPlan s.rev i)[transacted s.rev k i]? ∧
    transacted s.rev next i = transacted s.rev k i + 1

theorem deliverV0_bystands (bs : List Byte) : Bystands (deliverV0 bs) :=
  ⟨deliverV0_computes bs, fun _ => rfl, fun _ => rfl⟩

theorem deliverV1_bystands (bs : List Byte) : Bystands (deliverV1 bs) :=
  ⟨deliverV1_computes bs, fun _ => rfl, fun _ => rfl⟩

theorem deliverMode_bystands (pulseOn : Bool) (bs : List Byte) : Bystands (deliverMode pulseOn bs) :=
  ⟨deliverMode_computes pulseOn bs, fun _ => rfl, fun _ => rfl⟩

theorem deliverAtten_bystands (level : Int) (bs : List Byte) : Bystands (deliverAtten level bs) :=
  ⟨deliverAtten_computes level bs, fun _ => rfl, fun _ => rfl⟩

theorem deliverTemp_bystands (wb : Bool) (bs : List Byte) : Bystands (deliverTemp wb bs) :=
  ⟨deliverTemp_computes wb bs, fun _ => rfl, fun _ => rfl⟩

theorem editChannel_bystands (ch : Channel) : Bystands (editChannel ch) :=
  ⟨editChannel_computes ch, fun _ => rfl, fun _ => rfl⟩

theorem afterReads_bystands (ch : Channel) : Bystands (afterReads ch) where
  toComputes := afterReads_computes ch
  handle s := by unfold afterReads; split <;> rfl
  traffic s := by unfold afterReads; split <;> rfl

/-- After its reads SELECT goes on to step 3 on revision D, and to the step that follows on revision E (R181). -/
theorem afterReads_step (ch : Channel) (s : State) :
    (afterReads ch s).step = if s.rev = .d then 3#3 else s.step := by
  cases h : s.rev <;> simp [afterReads, h]

section
variable {i : Instr} {s : State} {k : Nat} (hk : s.step.toNat = k) (h : k < 5)
include hk h

/-- A step that writes, and its place in the step list. -/
theorem transactsAt_of_write (dev : DevAddr) (off val : Byte)
    (hs : ∀ env, commandSteps i (s.setEnv env) = memWrite dev off val (s.setEnv env))
    (listed : (transportPlan s.rev i)[transacted s.rev k i]? = some (.writes dev off))
    (next : transacted s.rev (k + 1) i = transacted s.rev k i + 1) : s.transactsAt k i :=
  ⟨_, _, (memWrite_transacts hk h dev off val).congr hs, listed.symm, next⟩

/-- A step that reads, and its place in the step list. -/
theorem transactsAt_of_read (dev : DevAddr) (off : Byte) (len : ReadLen) {deliver : List Byte → State → State}
    (hs : ∀ env, commandSteps i (s.setEnv env) = memRead dev off len deliver (s.setEnv env))
    (hd : ∀ bs, Bystands (deliver bs)) (hstep : ∀ bs u, (deliver bs u).step = u.step)
    (listed : (transportPlan s.rev i)[transacted s.rev k i]? = some (.reads dev off))
    (next : transacted s.rev (k + 1) i = transacted s.rev k i + 1) : s.transactsAt k i :=
  ⟨_, _, (memRead_transacts hk h dev off len hd hstep).congr hs, listed.symm, next⟩

end

/-- SETUP's step `k` writes zero to the `k`-th of its registers (R166). -/
theorem commandSteps_setup {s : State} {k : Nat} (hk : s.step.toNat = k) {l : Loc}
    (hl : (storedLocs .setup)[k]? = some l) : commandSteps .setup s = memWrite l.dev l.off 0x00#8 s := by
  match k with
  | 0 | 1 | 2 | 3 =>
    cases hl
    simp only [commandSteps, setupStep, hk]
    rfl
  | k + 4 => nomatch hl

section
variable {i : Instr} {pulseOn : Bool} (hi : i = if pulseOn then .setPulse else .setVco) {s : State}
include hi

/-- Both mode commands run the mode primitive (R171, R172). -/
theorem commandSteps_mode : commandSteps i = modeStep pulseOn := by
  subst hi
  cases pulseOn <;> rfl

/-- The mode primitive's step 0 (R170). -/
theorem commandSteps_mode_read (hk : s.step.toNat = 0) :
    commandSteps i s = memRead Config.expander1 Config.regOut .one (deliverMode pulseOn) s := by
  simp only [commandSteps_mode hi, modeStep, hk]

/-- The mode primitive's step 1 (R170). -/
theorem commandSteps_mode_write (hk : s.step.toNat = 1) :
    commandSteps i s = memWrite Config.expander1 Config.regOut s.v1 s := by
  simp only [commandSteps_mode hi, modeStep, hk]

/-- The mode primitive's end (R170). -/
theorem commandSteps_mode_last (hk : 2 ≤ s.step.toNat) : commandSteps i s = .halt s.finish := by
  obtain ⟨n, hn⟩ := Nat.exists_eq_add_of_le' hk
  simp only [commandSteps_mode hi, modeStep, hn]

end

section
variable {s : State} {k : Nat} (hk : s.step.toNat = k)
include hk

theorem setup_transactsAt (h : k < 4) : s.transactsAt k .setup := by
  have hl : (storedLocs .setup)[k]? = some ((storedLocs .setup)[k]) := List.getElem?_eq_getElem h
  refine transactsAt_of_write hk (by omega) _ _ 0x00#8 (fun env => commandSteps_setup (s := s.setEnv env) hk hl) ?_ rfl
  have listed : transportPlan s.rev .setup = (storedLocs .setup).map fun l => .writes l.dev l.off := by
    cases s.rev <;> rfl
  rw [listed, List.getElem?_map]
  exact congrArg _ hl

theorem select_transactsAt {ch : Channel} (h : k < 5) (hp : s.onPath (.select ch)) : s.transactsAt k (.select ch) := by
  match k with
  | 0 =>
    refine transactsAt_of_read hk h Config.expander0 Config.regOut .one (fun env => ?_) deliverV0_bystands
      (fun _ _ => rfl) ?_ ?_
    · simp only [commandSteps, selectStep, State.setEnv, hk]
    all_goals cases s.rev <;> rfl
  | 1 =>
    have read := memRead_transacts hk h Config.expander1 Config.regOut .one deliverV1_bystands fun _ _ => rfl
    refine ⟨_, if s.rev = .d then 3 else 2, (read.andThen (afterReads_bystands ch) fun u hr hn => ?_).congr
      (fun env => ?_), ?_⟩
    · rw [afterReads_step, hr]
      cases s.rev
      · rfl
      · exact hn
    · simp only [commandSteps, selectStep, State.setEnv, hk]
    · cases s.rev <;> exact ⟨rfl, rfl⟩
  | 2 =>
    refine ⟨_, _, ((memWrite_transacts hk h Config.expander1 Config.regOut s.v1).andThen (editChannel_bystands ch)
      fun u _ hn => hn).congr (fun env => ?_), ?_⟩
    · simp only [commandSteps, selectStep, State.setEnv, hk]
    · cases hr : s.rev with
      | d => exact absurd ⟨hr, hk⟩ hp
      | e => exact ⟨rfl, rfl⟩
  | 3 =>
    refine transactsAt_of_write hk h Config.expander0 Config.regOut s.v0 (fun env => ?_) ?_ ?_
    · simp only [commandSteps, selectStep, State.setEnv, hk]
    all_goals cases s.rev <;> rfl
  | 4 =>
    refine transactsAt_of_write hk h Config.expander1 Config.regOut s.v1 (fun env => ?_) ?_ ?_
    · simp only [commandSteps, selectStep, State.setEnv, hk]
    all_goals cases s.rev <;> rfl

/-- Both modes' steps (R170). -/
theorem mode_transactsAt {i : Instr} {pulseOn : Bool} (hi : i = if pulseOn then .setPulse else .setVco)
    (h : k < 2) : s.transactsAt k i := by
  match k with
  | 0 =>
    refine transactsAt_of_read hk (by decide) Config.expander1 Config.regOut .one
      (fun env => commandSteps_mode_read hi (s := s.setEnv env) hk) (deliverMode_bystands pulseOn)
      (fun _ _ => rfl) ?_ ?_
    all_goals subst hi; cases pulseOn <;> cases s.rev <;> rfl
  | 1 =>
    refine transactsAt_of_write hk (by decide) Config.expander1 Config.regOut s.v1
      (fun env => commandSteps_mode_write hi (s := s.setEnv env) hk) ?_ ?_
    all_goals subst hi; cases pulseOn <;> cases s.rev <;> rfl

theorem setAtten_transactsAt {level : Int} (h : k < 4) : s.transactsAt k (.setAtten level) := by
  match k with
  | 0 =>
    refine transactsAt_of_read hk (by decide) Config.expander0 Config.regOut .one (fun env => ?_)
      (deliverAtten_bystands level) (fun _ _ => rfl) ?_ ?_
    · simp only [commandSteps, setAttenStep, State.setEnv, hk]
    all_goals cases s.rev <;> rfl
  | 1 =>
    refine transactsAt_of_write hk (by decide) Config.expander0 Config.regOut s.v0 (fun env => ?_) ?_ ?_
    · simp only [commandSteps, setAttenStep, State.setEnv, hk]
    all_goals cases s.rev <;> rfl
  | 2 =>
    refine transactsAt_of_write hk (by decide) Config.expander0 Config.regOut (s.v0 ||| loadEnable)
      (fun env => ?_) ?_ ?_
    · simp only [commandSteps, setAttenStep, State.setEnv, hk]
    all_goals cases s.rev <;> rfl
  | 3 =>
    refine transactsAt_of_write hk (by decide) Config.expander0 Config.regOut s.v0 (fun env => ?_) ?_ ?_
    · simp only [commandSteps, setAttenStep, State.setEnv, hk]
    all_goals cases s.rev <;> rfl

theorem readTemp_transactsAt {wb : Bool} (h : k < 1) : s.transactsAt k (.readTemp wb) := by
  match k with
  | 0 =>
    refine transactsAt_of_read hk (by decide) Config.sensor Config.regTemp .two (fun env => ?_)
      (deliverTemp_bystands wb) (fun _ _ => rfl) ?_ ?_
    · simp only [commandSteps, readTempStep, State.setEnv, hk]
    all_goals cases s.rev <;> rfl

end

/-- An engine command may wait at a step on its path as long as it has transactions to issue (R165). -/
theorem mayWaitAt_iff_transacted {i : Instr} (hi : isEngine i = true) {s : State} (hp : s.onPath i) :
    mayWaitAt s.rev s.step.toNat i ↔ transacted s.rev s.step.toNat i < transportCalls s.rev i := by
  cases i with
  | openDev | close | enable | disable | enableDebug => cases hi
  | select ch =>
    cases hr : s.rev with
    | d =>
      have skipped : s.step.toNat ≠ 2 := fun hk => hp ⟨hr, hk⟩
      simp only [mayWaitAt, transacted, transportCalls, true_and]
      split <;> omega
    | e => simp [mayWaitAt, transacted, transportCalls]
  | setup | setPulse | setVco | setAtten | readTemp => cases s.rev <;> exact Iff.rfl

/-- Where an engine command may wait, it issues the next call of its step list (R165). -/
theorem transactsAt_of_mayWaitAt {i : Instr} (hi : isEngine i = true) {s : State}
    (hw : mayWaitAt s.rev s.step.toNat i) : s.transactsAt s.step.toNat i := by
  cases i with
  | openDev | close | enable | disable | enableDebug => cases hi
  | setup => exact setup_transactsAt rfl hw
  | select ch => exact select_transactsAt rfl hw.1 hw.2
  | setPulse => exact mode_transactsAt (pulseOn := true) rfl rfl hw
  | setVco => exact mode_transactsAt (pulseOn := false) rfl rfl hw
  | setAtten level => exact setAtten_transactsAt rfl hw
  | readTemp wb => exact readTemp_transactsAt rfl hw

/-- Where an engine command cannot wait any more, it ends without error (R28). -/
theorem commandSteps_last {i : Instr} (hi : isEngine i = true) {s : State} (hp : s.onPath i)
    (hw : ¬mayWaitAt s.rev s.step.toNat i) : commandSteps i s = .halt s.finish := by
  cases i with
  | openDev | close | enable | disable | enableDebug => cases hi
  | select ch =>
    obtain ⟨n, hn⟩ := Nat.exists_eq_add_of_le' (Nat.le_of_not_lt fun h => hw ⟨h, hp⟩)
    simp only [commandSteps, selectStep, hn]
  | setup =>
    obtain ⟨n, hn⟩ := Nat.exists_eq_add_of_le' (Nat.le_of_not_lt hw)
    simp only [commandSteps, setupStep, hn]
  | setPulse => exact commandSteps_mode_last (pulseOn := true) rfl (Nat.le_of_not_lt hw)
  | setVco => exact commandSteps_mode_last (pulseOn := false) rfl (Nat.le_of_not_lt hw)
  | setAtten level =>
    obtain ⟨n, hn⟩ := Nat.exists_eq_add_of_le' (Nat.le_of_not_lt hw)
    simp only [commandSteps, setAttenStep, hn]
  | readTemp wb =>
    obtain ⟨n, hn⟩ := Nat.exists_eq_add_of_le' (Nat.le_of_not_lt hw)
    simp only [commandSteps, readTempStep, hn]

/-! ### Runs of transactions -/

/-- As long as its transactions succeed an engine command goes through its step list, whatever turns come later. -/
theorem run_issues {i : Instr} (hi : isEngine i = true) {oks : List Answer} (hok : ∀ a ∈ oks, a.ok = true) (s : State)
    (hp : s.onPath i) (hl : transacted s.rev s.step.toNat i + oks.length ≤ transportCalls s.rev i) :
    ∃ u, s.Issued oks.length u ∧ u.onPath i ∧
      transacted u.rev u.step.toNat i = transacted s.rev s.step.toNat i + oks.length ∧
      ∀ late, run i (s.setEnv (oks.map .answer ++ late)) = run i (u.setEnv late) := by
  induction oks generalizing s with
  | nil => exact ⟨s, .refl s, hp, rfl, fun _ => rfl⟩
  | cons a oks ih =>
    rw [List.forall_mem_cons] at hok
    rw [List.length_cons] at hl
    obtain ⟨call, next, transacts, -, hnext⟩ :=
      transactsAt_of_mayWaitAt hi ((mayWaitAt_iff_transacted hi hp).mpr (by omega))
    obtain ⟨v, hgo, issued, rfl⟩ := transacts.succeeds a hok.1
    have onPath : v.onPath i := commandSteps_onPath (u := v.setEnv []) (hgo [])
    have counted : transacted v.rev v.step.toNat i = transacted s.rev s.step.toNat i + 1 := by rw [issued.rev, hnext]
    obtain ⟨u, issued', onPath', count, later⟩ := ih hok.2 v onPath (by rw [counted, issued.rev]; omega)
    refine ⟨u, ?_, onPath', ?_, fun late => (run_go (hgo _)).trans (later late)⟩
    · rw [List.length_cons, Nat.add_comm]
      exact issued.trans issued'
    · rw [count, counted, List.length_cons]
      omega

/-- An engine command whose first transactions succeed, from its start. -/
theorem exec_issues {i : Instr} (hi : isEngine i = true) {s : State} (hr : s.readyFor i) {oks : List Answer}
    (hok : ∀ a ∈ oks, a.ok = true) (hl : oks.length ≤ transportCalls s.rev i) :
    ∃ u, (s.start i).Issued oks.length u ∧ u.onPath i ∧ transacted u.rev u.step.toNat i = oks.length ∧
      ∀ late, exec i (s.setEnv (oks.map .answer ++ late)) = .next (run i (u.setEnv late)) := by
  have start : transacted (s.start i).rev (s.start i).step.toNat i = 0 := transacted_zero s.rev i
  have onPath : (s.start i).onPath i := by cases i <;> simp [State.onPath]
  have room : transacted (s.start i).rev (s.start i).step.toNat i + oks.length ≤ transportCalls s.rev i := by
    rwa [start, Nat.zero_add]
  obtain ⟨u, issued, onPath, count, later⟩ := run_issues hi hok (s.start i) onPath room
  refine ⟨u, issued, onPath, by rw [count, start, Nat.zero_add], fun late => ?_⟩
  exact (exec_readyFor (s := s.setEnv (oks.map EnvTurn.answer ++ late)) hr).trans (congrArg _ (later late))

/-- Settles O49: the successes lead through the whole step list, and then the command ends. -/
theorem engineCommandIssuesItsTransactions : Obligations.EngineCommandIssuesItsTransactions := by
  intro i s oks rest hi hr he hok hl
  obtain ⟨u, issued, onPath, count, later⟩ := exec_issues hi hr hok hl.le
  have last : commandSteps i (u.setEnv rest) = .halt (u.setEnv rest).finish := by
    refine commandSteps_last hi onPath fun hw => ?_
    have more := (mayWaitAt_iff_transacted hi onPath).mp hw
    rw [count, hl, issued.rev] at more
    exact absurd more (Nat.lt_irrefl _)
  obtain ⟨sent, traffic, count, entries⟩ := issued.traffic
  have exec_eq : exec i s = .next (run i (u.setEnv rest)) := by
    rw [← later rest, ← he]
    rfl
  exact ⟨_, sent, exec_eq.trans (congrArg _ (run_halt last)), rfl, rfl, rfl, rfl, traffic, count, entries⟩

/-- What the first failing transaction of an engine command leads to (R165, R224, R226). -/
theorem exec_stops {i : Instr} {s : State} {oks : List Answer} {bad : Answer} {rest : List EnvTurn}
    (hi : isEngine i = true) (hr : s.readyFor i) (he : s.env = oks.map .answer ++ .answer bad :: rest)
    (hok : ∀ a ∈ oks, a.ok = true) (hbad : bad.ok = false) (hl : oks.length < transportCalls s.rev i) :
    ∃ u call, (s.start i).Issued oks.length u ∧ call.target = (transportPlan s.rev i)[oks.length]? ∧
      exec i { s with env := oks.map .answer } = .next (u.withBus (some call) [] u.dev) ∧
      exec i s = .next (u.failed call bad rest) := by
  obtain ⟨u, issued, onPath, count, later⟩ := exec_issues hi hr hok hl.le
  have more : transacted u.rev u.step.toNat i < transportCalls u.rev i := by rwa [count, issued.rev]
  obtain ⟨call, next, transacts, target, -⟩ :=
    transactsAt_of_mayWaitAt hi ((mayWaitAt_iff_transacted hi onPath).mpr more)
  rw [count, issued.rev] at target
  refine ⟨u, call, issued, target, ?_, ?_⟩
  · rw [← run_halt transacts.waits, ← later [], List.append_nil]
    rfl
  · rw [← run_halt (transacts.fails bad rest hbad), ← later, ← he]
    rfl

end Sys2Proof.Machine
end

section
/-! PROOFS. SETUP, SET_PULSE and SET_VCO (R166, R170 to R173): what they come to when their transactions succeed, and
what a failed one leaves. -/

namespace Sys2Proof.Machine

/-! ### SETUP -/

/-- Settles O29: the four writes of `exec_setup_succeeds`, their notes put together. -/
theorem setupZeroesBothExpanders : Obligations.SetupZeroesBothExpanders := by
  intro s a0 a1 a2 a3 rest hr he h0 h1 h2 h3
  rw [exec_setup_succeeds hr he h0 h1 h2 h3]
  cases hd : s.debug <;>
    simp [State.ended, State.finish, State.wrote, State.withBus, State.noteOk, State.advance, State.start, hr.1, hd,
      Message.record, writeMessages]

/-- The devices `d` are `d₀` with the first `k` of SETUP's registers zeroed, as far as SETUP's registers and the latch
go (R167). -/
structure Zeroed (k : Nat) (d₀ d : Devices) : Prop where
  wf : d.mem.wf
  att : d.att = d₀.att
  zero : ∀ j l, (storedLocs .setup)[j]? = some l → j < k → d.read l = 0x00#8
  kept : ∀ j l, (storedLocs .setup)[j]? = some l → k ≤ j → d.read l = d₀.read l

theorem Zeroed.refl {d : Devices} (h : d.mem.wf) : Zeroed 0 d d :=
  ⟨h, rfl, fun _ _ _ hj => absurd hj (Nat.not_lt_zero _), fun _ _ _ _ => rfl⟩

theorem dev_of_mem_storedLocs_setup {l : Loc} (h : l ∈ storedLocs .setup) :
    (l.dev = Config.expander0 ∨ l.dev = Config.expander1) ∧ l = { dev := l.dev, off := l.off, idx := 0 } := by
  revert l
  decide

section
variable {k : Nat} {d₀ d : Devices} (h : Zeroed k d₀ d)
include h

/-- Other masters that spare the expanders change none of the registers (R72). -/
theorem Zeroed.disturb {a : Answer} (hs : (EnvTurn.answer a).sparesExpanders = true) :
    Zeroed k d₀ (d.disturb a.others) := by
  obtain ⟨att, -, spared⟩ := Devices.disturb_spared hs d
  have spared' : ∀ j l, (storedLocs .setup)[j]? = some l → (d.disturb a.others).read l = d.read l := fun j l hl =>
    spared l (dev_of_mem_storedLocs_setup (List.mem_of_getElem? hl)).1
  exact ⟨Devices.disturb_wf h.wf _, att.trans h.att, fun j l hl hj => (spared' j l hl).trans (h.zero j l hl hj),
    fun j l hl hj => (spared' j l hl).trans (h.kept j l hl hj)⟩

/-- SETUP's next write (R166). -/
theorem Zeroed.write {l : Loc} (hl : (storedLocs .setup)[k]? = some l) : Zeroed (k + 1) d₀ (d.write l 0x00#8) := by
  have other : ∀ j l', (storedLocs .setup)[j]? = some l' → j ≠ k → (d.write l 0x00#8).read l' = d.read l' := by
    intro j l' hl' hj
    refine Devices.read_write_ne (fun he => hj ?_) d _
    obtain ⟨hlt, -⟩ := List.getElem?_eq_some_iff.mp hl'
    have nodup : (storedLocs .setup).Nodup := by decide
    exact (List.getElem?_inj hlt nodup).mp (by rw [hl', hl, he])
  refine ⟨Devices.write_wf h.wf _ _, ?_, fun j l' hl' hj => ?_, fun j l' hl' hj => ?_⟩
  · exact (Devices.latch_write (latches_zero l)).1.trans h.att
  · rcases Nat.lt_succ_iff_lt_or_eq.mp hj with hlt | rfl
    · exact (other j l' hl' hlt.ne).trans (h.zero j l' hl' hlt)
    · obtain rfl : l = l' := Option.some.inj (hl.symm.trans hl')
      exact Devices.read_write_self h.wf _ _
  · exact (other j l' hl' (by omega)).trans (h.kept j l' hl' (by omega))

end

/-- Before its last step SETUP writes zero to the next of its registers (R166). -/
theorem exists_setup_write {s : State} {k : Nat} (hk : s.step.toNat = k) (h : k < 4) :
    ∃ dev off, (storedLocs .setup)[k]? = some { dev := dev, off := off, idx := 0 } ∧
      commandSteps .setup s = memWrite dev off 0x00#8 s := by
  have hl : (storedLocs .setup)[k]? = some (storedLocs .setup)[k] := List.getElem?_eq_getElem h
  obtain ⟨-, loc⟩ := dev_of_mem_storedLocs_setup (List.mem_of_getElem? hl)
  exact ⟨_, _, loc ▸ hl, commandSteps_setup hk hl⟩

/-- A SETUP that fails has zeroed as many of its registers as writes have succeeded, or one more (R77, R167). -/
theorem run_setup_fails {oks : List Answer} {bad : Answer} {rest : List EnvTurn} {d₀ : Devices} {k : Nat} {s : State}
    (hok : ∀ a ∈ oks, a.ok = true ∧ (EnvTurn.answer a).sparesExpanders = true) (hbad : bad.ok = false)
    (spares : (EnvTurn.answer bad).sparesExpanders = true) (hk : s.step.toNat = k) (h : Zeroed k d₀ s.dev)
    (he : s.env = oks.map .answer ++ .answer bad :: rest) (hl : k + oks.length < 4) :
    Zeroed (k + oks.length) d₀ (run .setup s).dev ∨ Zeroed (k + oks.length + 1) d₀ (run .setup s).dev := by
  obtain ⟨dev, off, here, write⟩ := exists_setup_write hk (Nat.lt_of_le_of_lt (Nat.le_add_right ..) hl)
  induction oks generalizing s k dev off with
  | nil =>
    rw [run_halt (write.trans (memWrite_fails he hbad ..))]
    cases htook : bad.took with
    | false => exact .inl (by simpa [htook, State.withBus] using h.disturb spares)
    | true => exact .inr (by simpa [htook, State.withBus] using (h.disturb spares).write here)
  | cons a oks ih =>
    rw [List.forall_mem_cons] at hok
    obtain ⟨⟨ha, hspares⟩, hoks⟩ := hok
    rw [List.length_cons, Nat.add_comm oks.length, ← Nat.add_assoc] at hl ⊢
    rw [run_wrote write he ha]
    have hk' := State.wrote_step hk (by omega) a (oks.map .answer ++ .answer bad :: rest) dev off 0x00#8
    obtain ⟨dev', off', here', write'⟩ := exists_setup_write hk' (by omega)
    exact ih hoks hk' ((h.disturb hspares).write here) rfl hl dev' off' here' write'

/-! ### The mode edit -/

/-- The edit bit by bit (R170). -/
theorem modeEdit_getLsbD (pulseOn : Bool) (old : Byte) {k : Nat} (hk : k < 8) :
    (modeEdit pulseOn old).getLsbD k = if k = 6 then pulseOn else if k = 3 then !pulseOn else old.getLsbD k := by
  interval_cases k <;> cases pulseOn <;> simp [modeEdit]

/-- Settles O33: bit by bit. -/
theorem modesAreMutuallyExclusive : Obligations.ModesAreMutuallyExclusive := by
  intro pulseOn old
  refine ⟨modeEdit_getLsbD pulseOn old (by decide), modeEdit_getLsbD pulseOn old (by decide), fun k hk h6 h3 => ?_, ?_⟩
  · rw [modeEdit_getLsbD pulseOn old hk, if_neg h6, if_neg h3]
  · refine BitVec.eq_of_getLsbD_eq fun k hk => ?_
    rw [modeEdit_getLsbD _ _ hk, modeEdit_getLsbD _ _ hk]
    split_ifs <;> rfl

/-! ### SET_PULSE and SET_VCO -/

section
variable {i : Instr} {pulseOn : Bool} (hi : i = if pulseOn then .setPulse else .setVco) {s : State} (hr : s.readyFor i)
include hi hr

/-- A mode command whose read succeeds goes on to the write of the edited byte (R170). -/
theorem exec_mode_fetched {a : Answer} {rest : List EnvTurn} (he : s.env = .answer a :: rest) (hok : a.ok = true) :
    exec i s = .next (run i ((s.start i).fetched a rest 0x3F#7 0x01#8 .one (deliverMode pulseOn))) := by
  rw [exec_readyFor hr]
  exact congrArg _ (run_fetched (s := s.start i) (commandSteps_mode_read hi rfl) he hok)

/-- A mode command whose two transactions succeed writes the edited byte and keeps it in `V1` (R170). -/
theorem exec_mode_succeeds {a0 a1 : Answer} {rest : List EnvTurn} (he : s.env = .answer a0 :: .answer a1 :: rest)
    (h0 : a0.ok = true) (h1 : a1.ok = true) {old : Byte} (ho : old = (s.dev.disturb a0.others).read Loc.out1) :
    exec i s = .next { s.ended .noError 0#32 rest
      (((s.dev.disturb a0.others).disturb a1.others).write Loc.out1 (modeEdit pulseOn old))
      [s.sent (readMessages 0x3F#7 0x01#8 .one [old]), s.sent (writeMessages 0x3F#7 0x01#8 (modeEdit pulseOn old))]
      ((readMessages 0x3F#7 0x01#8 .one [old] ++ writeMessages 0x3F#7 0x01#8 (modeEdit pulseOn old)).map Message.record)
      with v1 := modeEdit pulseOn old } := by
  subst ho
  rw [exec_mode_fetched hi hr he h0]
  refine congrArg _ ((run_wrote (commandSteps_mode_write hi rfl) rfl h1).trans ?_)
  rw [run_halt (commandSteps_mode_last hi (State.wrote_step (k := 1) rfl (by decide) ..).ge)]
  cases hd : s.debug <;>
    simp [State.ended, State.finish, State.wrote, State.fetched, State.withBus, State.noteOk, State.advance,
      State.start, deliverMode, Devices.receive, Loc.out1, hr.1, hd]

/-- A mode command whose read fails leaves the devices as the other masters have them (R77, R227). -/
theorem exec_mode_read_fails {bad : Answer} {rest : List EnvTurn} (he : s.env = .answer bad :: rest)
    (hbad : bad.ok = false) : ∃ t, exec i s = .next t ∧ t.dev = s.dev.disturb bad.others := by
  have read := (commandSteps_mode_read hi rfl).trans (memRead_fails (s := s.start i) he hbad ..)
  exact ⟨_, (exec_readyFor hr).trans (congrArg _ (run_halt read)), rfl⟩

/-- A mode command whose write fails leaves `OUT1` as the other masters have it, or edited (R77, R227). -/
theorem exec_mode_write_fails {a bad : Answer} {rest : List EnvTurn} (he : s.env = .answer a :: .answer bad :: rest)
    (hok : a.ok = true) (hbad : bad.ok = false) :
    ∃ t, exec i s = .next t ∧ t.dev =
      if bad.took then ((s.dev.disturb a.others).disturb bad.others).write Loc.out1
        (modeEdit pulseOn ((s.dev.disturb a.others).read Loc.out1))
      else (s.dev.disturb a.others).disturb bad.others := by
  rw [exec_mode_fetched hi hr he hok]
  exact ⟨_, congrArg _ (run_halt ((commandSteps_mode_write hi rfl).trans (memWrite_fails rfl hbad ..))), rfl⟩

end

/-- Settles O31: the mode primitive with pulse on. -/
theorem setPulseRewritesTheModeBits : Obligations.SetPulseRewritesTheModeBits :=
  fun _ _ _ _ hr he h0 h1 => exec_mode_succeeds (pulseOn := true) rfl hr he h0 h1 rfl

/-- Settles O32: the mode primitive with pulse off. -/
theorem setVcoRewritesTheModeBits : Obligations.SetVcoRewritesTheModeBits :=
  fun _ _ _ _ hr he h0 h1 => exec_mode_succeeds (pulseOn := false) rfl hr he h0 h1 rfl

/-! ### The first failure -/

/-- Settles O48: `exec_stops` for every engine command, the registers that `run_setup_fails` finds zeroed, and either
failure of a mode command. -/
theorem engineCommandStopsAtFirstFailure : Obligations.EngineCommandStopsAtFirstFailure := by
  refine ⟨?stops, ?setup, ?modes⟩
  case stops =>
    intro i s oks bad rest hi hr he hok hbad hl
    obtain ⟨u, call, issued, target, waits, stops⟩ := exec_stops hi hr he hok hbad hl
    obtain ⟨sent, traffic, count, entries⟩ := issued.traffic
    have handleBus : u.handleBus = s.handleBus := issued.handleBus
    exact ⟨_, call, sent, _, waits, issued.current, rfl, target, traffic, count, entries, stops, rfl, rfl, rfl, rfl,
      issued.lifecycle, by rw [← handleBus]; rfl, rfl⟩
  case setup =>
    intro s oks bad rest hm hr he hl hok hbad spares
    refine ⟨_, exec_readyFor hr, ?_⟩
    have zeroed := run_setup_fails (s := s.start .setup) hok hbad spares rfl (.refl hm) he
      (by simpa using hl)
    simp only [State.start_step, BitVec.toNat_ofNat, Nat.zero_mod, Nat.zero_add] at zeroed
    rcases zeroed with h | h
    · exact ⟨h.att, fun k l hk => ⟨h.zero k l hk, fun hn => .inl (h.kept k l hk hn.ge), fun hn => h.kept k l hk hn.le⟩⟩
    · exact ⟨h.att, fun k l hk => ⟨fun hn => h.zero k l hk (by omega), fun hn => .inr (h.zero k l hk (by omega)),
        fun hn => h.kept k l hk hn⟩⟩
  case modes =>
    intro pulseOn s oks bad rest hm i hr he hok hbad spares
    have spared : ∀ a : Answer, (EnvTurn.answer a).sparesExpanders = true → ∀ d : Devices,
        (d.disturb a.others).read Loc.out1 = d.read Loc.out1 := fun a h d =>
      (Devices.disturb_spared h d).2.2 Loc.out1 (.inr rfl)
    match oks with
    | [] =>
      obtain ⟨t, ht, dev⟩ := exec_mode_read_fails rfl hr he hbad
      exact ⟨t, ht, fun _ => by rw [dev, spared bad spares], by simp⟩
    | [a] =>
      obtain ⟨ha, hspares⟩ := hok a (.head _)
      obtain ⟨t, ht, dev⟩ := exec_mode_write_fails rfl hr he ha hbad
      refine ⟨t, ht, by simp, fun _ => ?_⟩
      rw [dev, spared a hspares]
      cases bad.took with
      | false => exact .inl ((spared bad spares _).trans (spared a hspares _))
      | true => exact .inr (Devices.read_write_self (Devices.disturb_wf (Devices.disturb_wf hm _) _) _ _)
    | a :: b :: oks => exact ⟨_, exec_readyFor hr, by simp, by simp⟩

end Sys2Proof.Machine
end

section
/-! PROOFS. SELECT (R180 to R187): the bytes it writes, what it comes to on each revision when its transactions succeed, and
what a failed one leaves in the output registers. -/

namespace Sys2Proof.Machine

/-! ### The edits -/

/-- The bits that NONE clears are bits 7 and 5 (R184, R185). -/
theorem clear_bits_7_5 (b : Byte) : (b &&& 0x7F#8) &&& 0xDF#8 = b &&& 0x5F#8 :=
  BitVec.and_assoc ..

/-- On revision E a fibre channel keeps bits 5, 1 and 0 of the byte read and sets bit 3, of the forced bits the one that is
not cleared again (R184, R185). -/
theorem fiber_edit_of_forced (b : Byte) :
    ((b ||| 0x0C#8) &&& 0x2F#8) &&& 0xFB#8 = (b &&& 0x23#8) ||| 0x08#8 := by
  refine BitVec.eq_of_getLsbD_eq fun k hk => ?_
  interval_cases k <;> simp

/-- Settles O36: the edit table row by row; where a cell has two edits, their masks are put together. -/
theorem selectClosedForm : Obligations.SelectClosedForm := fun _ b =>
  ⟨rfl, ⟨rfl, rfl⟩, ⟨rfl, rfl⟩, ⟨rfl, rfl⟩, ⟨rfl, clear_bits_7_5 b⟩, ⟨rfl, rfl⟩,
    ⟨rfl, fiber_edit_of_forced b⟩, ⟨rfl, fiber_edit_of_forced b⟩, ⟨rfl, clear_bits_7_5 (forceE b)⟩⟩

/-! ### The steps -/

theorem afterReads_d {ch : Channel} {s : State} (h : s.rev = .d) :
    afterReads ch s = { editChannel ch s with step := 3#3 } := by
  simp [afterReads, h]

theorem afterReads_e {ch : Channel} {s : State} (h : s.rev = .e) : afterReads ch s = { s with v1 := forceE s.v1 } := by
  simp [afterReads, h]

section
variable {ch : Channel} {s : State}

/-- SELECT's step 0 (R182). -/
theorem commandSteps_select_readOut0 (hk : s.step = 0#3) :
    commandSteps (.select ch) s = memRead 0x38#7 0x01#8 .one deliverV0 s := by
  simp [commandSteps, selectStep, hk]

/-- SELECT's step 1 (R182, R183). -/
theorem commandSteps_select_readOut1 (hk : s.step = 1#3) :
    commandSteps (.select ch) s = (memRead 0x3F#7 0x01#8 .one deliverV1 s).andThen (afterReads ch) := by
  simp [commandSteps, selectStep, hk]

/-- SELECT's step 2, on revision E alone (R183, R184). -/
theorem commandSteps_select_forceOut1 (hk : s.step = 2#3) :
    commandSteps (.select ch) s = (memWrite 0x3F#7 0x01#8 s.v1 s).andThen (editChannel ch) := by
  simp [commandSteps, selectStep, hk]

/-- SELECT's step 3 (R186). -/
theorem commandSteps_select_writeOut0 (hk : s.step = 3#3) :
    commandSteps (.select ch) s = memWrite 0x38#7 0x01#8 s.v0 s := by
  simp [commandSteps, selectStep, hk]

/-- SELECT's step 4 (R186). -/
theorem commandSteps_select_writeOut1 (hk : s.step = 4#3) :
    commandSteps (.select ch) s = memWrite 0x3F#7 0x01#8 s.v1 s := by
  simp [commandSteps, selectStep, hk]

/-- SELECT's end (R28, R181). -/
theorem commandSteps_select_last (hk : s.step = 5#3) : commandSteps (.select ch) s = .halt s.finish := by
  simp [commandSteps, selectStep, hk]

end

/-- `s` after both reads of SELECT, when they succeed with the answers `a0` and `a1`, the turns `rest` still to come
(R182). -/
def State.bothFetched (a0 a1 : Answer) (rest : List EnvTurn) (s : State) : State :=
  (s.fetched a0 (.answer a1 :: rest) 0x38#7 0x01#8 .one deliverV0).fetched a1 rest 0x3F#7 0x01#8 .one deliverV1

section
variable {ch : Channel} {s : State} {a0 a1 : Answer} {rest : List EnvTurn}

section
variable (hr : s.readyFor (.select ch)) (he : s.env = .answer a0 :: .answer a1 :: rest) (h0 : a0.ok = true)
  (h1 : a1.ok = true)
include hr he h0 h1

/-- A SELECT whose reads succeed goes on with the computation that follows them (R182). -/
theorem exec_select_bothFetched :
    exec (.select ch) s = .next (run (.select ch) (afterReads ch ((s.start (.select ch)).bothFetched a0 a1 rest))) := by
  refine (exec_readyFor hr).trans (congrArg _ ?_)
  refine (run_fetched (s := s.start (.select ch)) (commandSteps_select_readOut0 rfl) he h0).trans (run_go ?_)
  rw [commandSteps_select_readOut1 rfl, memRead_succeeds rfl h1]
  rfl

/-- On revision D the edits follow the reads, and step 2 is skipped (R181, R184). -/
theorem exec_select_edited (hrev : s.rev = .d) : exec (.select ch) s = .next (run (.select ch)
    { editChannel ch ((s.start (.select ch)).bothFetched a0 a1 rest) with step := 3#3 }) := by
  rw [exec_select_bothFetched hr he h0 h1, afterReads_d (s := (s.start _).bothFetched a0 a1 rest) hrev]

/-- On revision E the byte read from `OUT1` is forced first (R183). -/
theorem exec_select_forced (hrev : s.rev = .e) : exec (.select ch) s = .next (run (.select ch)
    { (s.start (.select ch)).bothFetched a0 a1 rest with
      v1 := forceE ((s.start (.select ch)).bothFetched a0 a1 rest).v1 }) := by
  rw [exec_select_bothFetched hr he h0 h1, afterReads_e (s := (s.start _).bothFetched a0 a1 rest) hrev]

end

/-- The forcing write, when it succeeds, is followed by the edits (R183, R184). -/
theorem run_select_forced (hk : s.step = 2#3) (he : s.env = .answer a0 :: rest) (h0 : a0.ok = true) :
    run (.select ch) s = run (.select ch) (editChannel ch (s.wrote a0 rest 0x3F#7 0x01#8 s.v1)) :=
  run_go (by rw [commandSteps_select_forceOut1 hk, memWrite_succeeds he h0, Progress.andThen_go])

/-- The two final writes, when they succeed, end SELECT (R186). -/
theorem run_select_writes (hk : s.step = 3#3) (he : s.env = .answer a0 :: .answer a1 :: rest) (h0 : a0.ok = true)
    (h1 : a1.ok = true) : run (.select ch) s =
      ((s.wrote a0 (.answer a1 :: rest) 0x38#7 0x01#8 s.v0).wrote a1 rest 0x3F#7 0x01#8 s.v1).finish := by
  have step : (s.wrote a0 (.answer a1 :: rest) 0x38#7 0x01#8 s.v0).step = 4#3 := congrArg (· + 1#3) hk
  refine (run_wrote (commandSteps_select_writeOut0 hk) he h0).trans ?_
  refine (run_wrote (commandSteps_select_writeOut1 step) rfl h1).trans ?_
  exact run_halt (commandSteps_select_last (congrArg (· + 1#3) step))

end

/-! ### SELECT when its transactions succeed -/

/-- Settles O34: after both reads revision D goes on with the two final writes. -/
theorem selectOnRevisionD : Obligations.SelectOnRevisionD := by
  intro ch s a0 a1 a3 a4 rest hr hrev he h0 h1 h3 h4
  refine (exec_select_edited hr he h0 h1 hrev).trans (congrArg _ ?_)
  refine (run_select_writes rfl rfl h3 h4).trans ?_
  cases hd : s.debug <;>
    simp [State.ended, State.finish, State.wrote, State.bothFetched, State.fetched, State.withBus, State.noteOk,
      State.advance, State.start, deliverV0, deliverV1, editChannel, Devices.receive, hr.1, hrev, hd]

/-- Settles O35: after both reads revision E goes on with the forcing write and the two final ones. -/
theorem selectOnRevisionE : Obligations.SelectOnRevisionE := by
  intro ch s a0 a1 a2 a3 a4 rest hr hrev he h0 h1 h2 h3 h4
  refine (exec_select_forced hr he h0 h1 hrev).trans (congrArg _ ?_)
  refine (run_select_forced rfl rfl h2).trans ((run_select_writes rfl rfl h3 h4).trans ?_)
  cases hd : s.debug <;>
    simp [State.ended, State.finish, State.wrote, State.bothFetched, State.fetched, State.withBus, State.noteOk,
      State.advance, State.start, deliverV0, deliverV1, editChannel, forceE, Devices.receive, hr.1, hrev, hd]

/-! ### A SELECT that fails -/

/-- The devices `d`, their memory in canonical form, have `x` in `OUT0` and `y` in `OUT1`. -/
structure Outs (x y : Byte) (d : Devices) : Prop where
  wf : d.mem.wf
  out0 : d.read Loc.out0 = x
  out1 : d.read Loc.out1 = y

section
variable {x y : Byte} {d : Devices} (h : Outs x y d)
include h

/-- Other masters that spare the expanders change neither (R72). -/
theorem Outs.disturb {a : Answer} (hs : (EnvTurn.answer a).sparesExpanders = true) : Outs x y (d.disturb a.others) := by
  obtain ⟨-, -, spared⟩ := Devices.disturb_spared hs d
  exact ⟨Devices.disturb_wf h.wf _, (spared _ (.inl rfl)).trans h.out0, (spared _ (.inr rfl)).trans h.out1⟩

theorem Outs.write_out0 (v : Byte) : Outs v y (d.write Loc.out0 v) :=
  ⟨Devices.write_wf h.wf _ _, Devices.read_write_self h.wf _ _, (Devices.read_write_ne (by decide) _ _).trans h.out1⟩

theorem Outs.write_out1 (v : Byte) : Outs x v (d.write Loc.out1 v) :=
  ⟨Devices.write_wf h.wf _ _, (Devices.read_write_ne (by decide) _ _).trans h.out0, Devices.read_write_self h.wf _ _⟩

end

/-- Both reads find what was there (R182). -/
theorem Outs.bothFetched {x y : Byte} {s : State} (h : Outs x y s.dev) {a0 a1 : Answer}
    (h0 : (EnvTurn.answer a0).sparesExpanders = true) (h1 : (EnvTurn.answer a1).sparesExpanders = true) (i : Instr)
    (rest : List EnvTurn) : Outs x y ((s.start i).bothFetched a0 a1 rest).dev ∧
      ((s.start i).bothFetched a0 a1 rest).v0 = x ∧ ((s.start i).bothFetched a0 a1 rest).v1 = y :=
  ⟨(h.disturb h0).disturb h1, (h.disturb h0).out0, ((h.disturb h0).disturb h1).out1⟩

section
variable {x y : Byte} {s : State} {bad : Answer} {rest : List EnvTurn} (h : Outs x y s.dev)
  (he : s.env = .answer bad :: rest) (hbad : bad.ok = false) (spares : (EnvTurn.answer bad).sparesExpanders = true)
include h he hbad spares

/-- A read that fails changes neither (R77). -/
theorem Outs.memRead_halts (dev : DevAddr) (off : Byte) (len : ReadLen) (deliver : List Byte → State → State) :
    ∃ u, memRead dev off len deliver s = .halt u ∧ Outs x y u.dev :=
  ⟨_, memRead_fails he hbad .., h.disturb spares⟩

/-- A write to `OUT0` that fails leaves it old or new (R77). -/
theorem Outs.memWrite_out0_halts (v : Byte) :
    ∃ u, memWrite 0x38#7 0x01#8 v s = .halt u ∧ (Outs x y u.dev ∨ Outs v y u.dev) := by
  refine ⟨_, memWrite_fails he hbad .., ?_⟩
  cases htook : bad.took with
  | false => exact .inl (h.disturb spares)
  | true => exact .inr ((h.disturb spares).write_out0 v)

/-- A write to `OUT1` that fails leaves it old or new (R77). -/
theorem Outs.memWrite_out1_halts (v : Byte) :
    ∃ u, memWrite 0x3F#7 0x01#8 v s = .halt u ∧ (Outs x y u.dev ∨ Outs x v u.dev) := by
  refine ⟨_, memWrite_fails he hbad .., ?_⟩
  cases htook : bad.took with
  | false => exact .inl (h.disturb spares)
  | true => exact .inr ((h.disturb spares).write_out1 v)

end

section
variable {ch : Channel} {x y : Byte} {s : State} {oks : List Answer} {bad : Answer} {rest : List EnvTurn}
  (hok : ∀ a ∈ oks, a.ok = true ∧ (EnvTurn.answer a).sparesExpanders = true) (hbad : bad.ok = false)
  (spares : (EnvTurn.answer bad).sparesExpanders = true)
include hok hbad spares

/-- A SELECT one of whose reads fails has written nothing (R187). -/
theorem exec_select_read_fails (hr : s.readyFor (.select ch)) (outs : Outs x y s.dev)
    (he : s.env = oks.map .answer ++ .answer bad :: rest) (hl : oks.length < 2) :
    ∃ t, exec (.select ch) s = .next t ∧ Outs x y t.dev := by
  match oks with
  | [] =>
    obtain ⟨u, halts, outs⟩ := Outs.memRead_halts (s := s.start (.select ch)) outs he hbad spares 0x38#7 0x01#8 .one
      deliverV0
    exact ⟨u, (exec_readyFor hr).trans (congrArg _ (run_halt ((commandSteps_select_readOut0 rfl).trans halts))), outs⟩
  | [a] =>
    obtain ⟨ha, sa⟩ := hok a (.head _)
    have first := run_fetched (s := s.start (.select ch)) (commandSteps_select_readOut0 (ch := ch) rfl) he ha
    obtain ⟨u, halts, outs⟩ := Outs.memRead_halts (s := (s.start (.select ch)).fetched a _ 0x38#7 0x01#8 .one deliverV0)
      (outs.disturb sa) rfl hbad spares 0x3F#7 0x01#8 .one deliverV1
    have second := run_halt ((commandSteps_select_readOut1 rfl).trans (congrArg (Progress.andThen (afterReads ch)) halts))
    exact ⟨u, (exec_readyFor hr).trans (congrArg _ (first.trans second)), outs⟩
  | _ :: _ :: _ => exact absurd hl (by simp)

/-- A SELECT one of whose final writes fails leaves that register old or new (R187). -/
theorem run_select_writes_fail {v w : Byte} (hk : s.step = 3#3) (outs : Outs x y s.dev) (hv : s.v0 = v) (hw : s.v1 = w)
    (he : s.env = oks.map .answer ++ .answer bad :: rest) :
    (oks.length = 0 → Outs x y (run (.select ch) s).dev ∨ Outs v y (run (.select ch) s).dev) ∧
      (oks.length = 1 → Outs v y (run (.select ch) s).dev ∨ Outs v w (run (.select ch) s).dev) := by
  subst hv hw
  match oks with
  | [] =>
    obtain ⟨u, halts, left⟩ := outs.memWrite_out0_halts he hbad spares s.v0
    rw [run_halt ((commandSteps_select_writeOut0 hk).trans halts)]
    exact ⟨fun _ => left, by simp⟩
  | [a] =>
    obtain ⟨ha, sa⟩ := hok a (.head _)
    obtain ⟨u, halts, left⟩ := Outs.memWrite_out1_halts (s := s.wrote a _ 0x38#7 0x01#8 s.v0)
      ((outs.disturb sa).write_out0 s.v0) rfl hbad spares s.v1
    rw [run_wrote (commandSteps_select_writeOut0 hk) he ha,
      run_halt ((commandSteps_select_writeOut1 (congrArg (· + 1#3) hk)).trans halts)]
    exact ⟨by simp, fun _ => left⟩
  | _ :: _ :: _ => exact ⟨by simp, by simp⟩

/-- On revision E a SELECT that has come to the forcing write fails there or at one of the final writes (R187). -/
theorem run_select_forcing_fails {v w m : Byte} (hk : s.step = 2#3) (outs : Outs x y s.dev) (hm : s.v1 = m)
    (hv : editV0 s.rev ch s.v0 = v) (hw : editV1 s.rev ch m = w) (he : s.env = oks.map .answer ++ .answer bad :: rest) :
    (oks.length = 0 → Outs x y (run (.select ch) s).dev ∨ Outs x m (run (.select ch) s).dev) ∧
      (oks.length = 1 → Outs x m (run (.select ch) s).dev ∨ Outs v m (run (.select ch) s).dev) ∧
      (oks.length = 2 → Outs v m (run (.select ch) s).dev ∨ Outs v w (run (.select ch) s).dev) := by
  subst hm
  match oks with
  | [] =>
    obtain ⟨u, halts, left⟩ := outs.memWrite_out1_halts he hbad spares s.v1
    rw [run_halt ((commandSteps_select_forceOut1 hk).trans (congrArg (Progress.andThen (editChannel ch)) halts))]
    exact ⟨fun _ => left, by simp, by simp⟩
  | a :: oks =>
    rw [List.forall_mem_cons] at hok
    obtain ⟨⟨ha, sa⟩, hoks⟩ := hok
    rw [run_select_forced hk he ha]
    simp only [List.length_cons, Nat.reduceEqDiff]
    exact ⟨nofun, run_select_writes_fail hoks hbad spares (congrArg (· + 1#3) hk) ((outs.disturb sa).write_out1 s.v1)
      hv hw rfl⟩

section
variable {a0 a1 : Answer} (h0 : a0.ok = true ∧ (EnvTurn.answer a0).sparesExpanders = true)
  (h1 : a1.ok = true ∧ (EnvTurn.answer a1).sparesExpanders = true) (hr : s.readyFor (.select ch))
  (he : s.env = .answer a0 :: .answer a1 :: (oks.map .answer ++ .answer bad :: rest)) (outs : Outs x y s.dev)
include h0 h1 hr he outs

/-- A SELECT on revision D whose reads succeed fails at one of the final writes (R187). -/
theorem exec_select_fails_d (hrev : s.rev = .d) {v w : Byte} (hv : editV0 s.rev ch x = v) (hw : editV1 s.rev ch y = w) :
    ∃ t, exec (.select ch) s = .next t ∧ (oks.length = 0 → Outs x y t.dev ∨ Outs v y t.dev) ∧
      (oks.length = 1 → Outs v y t.dev ∨ Outs v w t.dev) := by
  obtain ⟨dev, v0, v1⟩ := outs.bothFetched h0.2 h1.2 (.select ch) (oks.map .answer ++ .answer bad :: rest)
  exact ⟨_, exec_select_edited hr he h0.1 h1.1 hrev, run_select_writes_fail hok hbad spares rfl dev
    ((congrArg (editV0 s.rev ch) v0).trans hv) ((congrArg (editV1 s.rev ch) v1).trans hw) rfl⟩

/-- A SELECT on revision E whose reads succeed fails at the forcing write or at one of the final ones (R187). -/
theorem exec_select_fails_e (hrev : s.rev = .e) {v w : Byte} (hv : editV0 s.rev ch x = v)
    (hw : editV1 s.rev ch (forceE y) = w) :
    ∃ t, exec (.select ch) s = .next t ∧ (oks.length = 0 → Outs x y t.dev ∨ Outs x (forceE y) t.dev) ∧
      (oks.length = 1 → Outs x (forceE y) t.dev ∨ Outs v (forceE y) t.dev) ∧
      (oks.length = 2 → Outs v (forceE y) t.dev ∨ Outs v w t.dev) := by
  obtain ⟨dev, v0, v1⟩ := outs.bothFetched h0.2 h1.2 (.select ch) (oks.map .answer ++ .answer bad :: rest)
  exact ⟨_, exec_select_forced hr he h0.1 h1.1 hrev, run_select_forcing_fails hok hbad spares rfl dev
    (congrArg forceE v1) ((congrArg (editV0 s.rev ch) v0).trans hv) hw rfl⟩

end

end

/-- Either way `OUT1` holds the same. -/
theorem Outs.out0_or {x x' y : Byte} {d : Devices} (h : Outs x y d ∨ Outs x' y d) :
    (d.read Loc.out0 = x ∨ d.read Loc.out0 = x') ∧ d.read Loc.out1 = y :=
  ⟨h.imp Outs.out0 Outs.out0, h.elim Outs.out1 Outs.out1⟩

/-- Either way `OUT0` holds the same. -/
theorem Outs.out1_or {x y y' : Byte} {d : Devices} (h : Outs x y d ∨ Outs x y' d) :
    d.read Loc.out0 = x ∧ (d.read Loc.out1 = y ∨ d.read Loc.out1 = y') :=
  ⟨h.elim Outs.out0 Outs.out0, h.imp Outs.out1 Outs.out1⟩

/-- Settles O38: nothing is written before the reads are done; then each write in turn leaves its register old or new. -/
theorem failedSelectLeavesATabledState : Obligations.FailedSelectLeavesATabledState := by
  intro ch s oks bad rest hm hr he hok hbad spares a b a' b'
  have outs : Outs a b s.dev := ⟨hm, rfl, rfl⟩
  match oks with
  | [] | [_] =>
    obtain ⟨t, ht, left⟩ := exec_select_read_fails hok hbad spares hr outs he (by simp)
    exact ⟨t, ht, fun _ => ⟨left.out0, left.out1⟩, by simp, by simp, by simp, by simp, by simp⟩
  | a0 :: a1 :: oks =>
    simp only [List.forall_mem_cons] at hok
    obtain ⟨h0, h1, hoks⟩ := hok
    simp only [List.length_cons, Nat.reduceEqDiff]
    cases hrev : s.rev with
    | d =>
      obtain ⟨t, ht, write3, write4⟩ := exec_select_fails_d hoks hbad spares h0 h1 hr he outs hrev (v := a')
        (w := b') rfl (by simp [b', hrev])
      exact ⟨t, ht, by simp, nofun, nofun, nofun, fun _ h => Outs.out0_or (write3 h), fun _ h => Outs.out1_or (write4 h)⟩
    | e =>
      obtain ⟨t, ht, write2, write3, write4⟩ := exec_select_fails_e hoks hbad spares h0 h1 hr he outs hrev (v := a')
        (w := b') rfl (by simp [b', hrev])
      exact ⟨t, ht, by simp, fun _ h => Outs.out1_or (write2 h), fun _ h => Outs.out0_or (write3 h),
        fun _ h => Outs.out1_or (write4 h), nofun, nofun⟩

end Sys2Proof.Machine
end

section
/-! PROOFS. SET_ATTEN (R195 to R203): the level's code and the byte that carries it, what the command comes to when its
transactions succeed, and what a failed one leaves in `OUT0` and in the latch. -/

namespace Sys2Proof.Machine

/-! ### The level's code -/

/-- The clamp is silent and total (R197). -/
theorem clampLevel_toNat (level : Int) : ((clampLevel level).toNat : Int) = max 0 (min level 63) := by
  rw [clampLevel, BitVec.toNat_ofInt, Config.attenMax]
  split_ifs <;> omega

/-- The six-bit difference does not wrap (R198). -/
theorem complementLevel_toNat (lvl : BitVec 6) : (complementLevel lvl).toNat = 63 - lvl.toNat :=
  have le : lvl ≤ 63#6 := Nat.le_of_lt_succ lvl.isLt
  BitVec.toNat_sub_of_le le

/-- The reversal bit by bit (R199). -/
theorem rev6_getLsbD (c : BitVec 6) {k : Nat} (hk : k < 6) : (rev6 c).getLsbD k = c.getLsbD (5 - k) := by
  simp only [rev6, BitVec.getLsbD_append]
  interval_cases k <;> simp

/-- Settles O40: the reversal bit by bit; twice it takes bit `k` from bit `5 - (5 - k)`. -/
theorem attenCodeIsReversedComplement : Obligations.AttenCodeIsReversedComplement := by
  refine ⟨fun level => ⟨clampLevel_toNat level, complementLevel_toNat _⟩, fun c _ => rev6_getLsbD c, fun c => ?_⟩
  refine BitVec.eq_of_getLsbD_eq fun k hk => ?_
  rw [rev6_getLsbD _ hk, rev6_getLsbD c (by omega), Nat.sub_sub_self (by omega)]

/-! ### The attenuator byte -/

/-- The merged byte is the code, the switch bit and a zero (R200). -/
theorem mergeAtten_eq_append (a : Byte) (r : BitVec 6) :
    mergeAtten a r = r ++ (BitVec.ofBool (a.getLsbD 1) ++ 0#1) := by
  refine BitVec.eq_of_getLsbD_eq fun k hk => ?_
  simp only [BitVec.getLsbD_append]
  interval_cases k <;> simp [mergeAtten]

/-- The byte of the latching write has a one in the last place (R201). -/
theorem mergeAtten_loadEnable_eq_append (a : Byte) (r : BitVec 6) :
    mergeAtten a r ||| loadEnable = r ++ (BitVec.ofBool (a.getLsbD 1) ++ 1#1) := by
  have enable : loadEnable = 0#6 ++ (0#1 ++ 1#1) := rfl
  rw [mergeAtten_eq_append, enable, BitVec.or_append, BitVec.or_append, BitVec.or_zero, BitVec.or_zero, BitVec.zero_or]

/-- No bit of the code is shifted out (R200). -/
theorem code_shiftLeft_le (r : BitVec 6) : ((r.setWidth 8 : Byte) <<< 2).toNat ≤ 0xFC := by
  have := r.isLt
  simp only [BitVec.toNat_shiftLeft, BitVec.toNat_setWidth, Nat.shiftLeft_eq]
  omega

/-- Settles O41: the bits are those of the concatenation, the code's in reversed order. -/
theorem attenByteIsAConcatenation : Obligations.AttenByteIsAConcatenation := by
  refine ⟨fun a r => ⟨mergeAtten_eq_append a r, mergeAtten_loadEnable_eq_append a r, code_shiftLeft_le r⟩,
    fun a c => ?_⟩
  simp only [mergeAtten_eq_append, BitVec.getLsbD_append]
  refine ⟨fun k hk => ?_, by simp, by simp⟩
  have code : ¬7 - k < 1 + 1 := by omega
  have back : 5 - (7 - k - (1 + 1)) = k := by omega
  rw [if_neg code, rev6_getLsbD c (by omega), back]

/-! ### SET_ATTEN when its transactions succeed -/

/-- Settles O39: the read and the three writes of `exec_setAtten_succeeds`, their notes put together. -/
theorem setAttenFillsLatchesReleases : Obligations.SetAttenFillsLatchesReleases := by
  intro level s a0 a1 a2 a3 rest hr he h0 h1 h2 h3 d0 a lvl r w d1 d2 d3
  rw [exec_setAtten_succeeds hr he h0 h1 h2 h3 (w := w) rfl]
  cases hd : s.debug <;>
    simp [State.ended, State.finish, State.wrote, State.fetched, State.withBus, State.noteOk, State.advance,
      State.start, deliverAtten, Devices.receive, hr.1, hd, w, r, lvl, a, d0, d1, d2, d3, loadEnable, complementLevel,
      mergeAtten]

/-! ### A SET_ATTEN that fails -/

/-- What R203 tables of the devices: the byte in `OUT0`, and the latch. -/
def Devices.attenView (d : Devices) : Byte × BitVec 6 × Bool := (d.read Loc.out0, d.att, d.everLatched)

/-- What it is after so many of SET_ATTEN's writes, from `a` in `OUT0` and `latch` (R201, R203). -/
def attenRow (a : Byte) (r : BitVec 6) (latch : BitVec 6 × Bool) : Nat → Byte × BitVec 6 × Bool
  | 0 => (a, latch)
  | 1 => (mergeAtten a r, latch)
  | 2 => (mergeAtten a r ||| loadEnable, r, true)
  | _ => (mergeAtten a r, r, true)

/-- Other masters that spare the expanders change nothing of it (R72). -/
theorem Devices.attenView_disturb {a : Answer} (hs : (EnvTurn.answer a).sparesExpanders = true) (d : Devices) :
    (d.disturb a.others).attenView = d.attenView := by
  obtain ⟨att, everLatched, spared⟩ := Devices.disturb_spared hs d
  rw [attenView, spared Loc.out0 (.inl rfl), att, everLatched, attenView]

/-- `OUT0` takes the byte, and the latch its code if load-enable is set in it (R75). -/
theorem Devices.attenView_write {d : Devices} (h : d.mem.wf) (v : Byte) :
    (d.write Loc.out0 v).attenView = (v, latched Loc.out0 v d.att, d.everLatched || latches Loc.out0 v) :=
  Prod.ext (Devices.read_write_self h ..) rfl

/-- Either way the latch is the same. -/
theorem Devices.attenView_or {d : Devices} {x y : Byte} {latch : BitVec 6 × Bool}
    (h : d.attenView = (x, latch) ∨ d.attenView = (y, latch)) :
    (d.read Loc.out0 = x ∨ d.read Loc.out0 = y) ∧ (d.att, d.everLatched) = latch :=
  ⟨h.imp (congrArg Prod.fst) (congrArg Prod.fst), h.elim (congrArg Prod.snd) (congrArg Prod.snd)⟩

section
variable {a : Byte} {r : BitVec 6} {latch : BitVec 6 × Bool}

/-- The next of SET_ATTEN's writes leads to the next row (R201, R203). -/
theorem Devices.attenView_write_row {d : Devices} (hm : d.mem.wf) {j : Nat} (hj : j < 3)
    (h : d.attenView = attenRow a r latch j) :
    (d.write Loc.out0 (attenRow a r latch (j + 1)).1).attenView = attenRow a r latch (j + 1) := by
  obtain ⟨-, hl⟩ := Prod.mk.inj h
  obtain ⟨att, ever⟩ := Prod.mk.inj hl
  rw [Devices.attenView_write hm, att, ever]
  match j with
  | 0 | 2 => simp [attenRow, latched, latches_mergeAtten]
  | 1 => simp [attenRow, latched, latches_loadEnable, extract_mergeAtten_loadEnable]

/-- `s` is a SET_ATTEN on its way, `j` of its writes done (R196, R203). -/
structure Attenuating (a : Byte) (r : BitVec 6) (latch : BitVec 6 × Bool) (j : Nat) (s : State) : Prop where
  wf : s.dev.mem.wf
  step : s.step.toNat = j + 1
  v0 : s.v0 = mergeAtten a r
  row : s.dev.attenView = attenRow a r latch j

/-- After its read SET_ATTEN writes the byte of the next row to `OUT0` (R201). -/
theorem Attenuating.writes {s : State} {j : Nat} (h : Attenuating a r latch j s) (hj : j < 3) (level : Int) :
    commandSteps (.setAtten level) s = memWrite 0x38#7 0x01#8 (attenRow a r latch (j + 1)).1 s := by
  match j with
  | 0 | 1 | 2 => simp [commandSteps, setAttenStep, h.step, h.v0, attenRow]

/-- A write that succeeds leads to the next row. -/
theorem Attenuating.wrote {s : State} {j : Nat} (h : Attenuating a r latch j s) (hj : j < 3) {b : Answer}
    (hs : (EnvTurn.answer b).sparesExpanders = true) (rest : List EnvTurn) :
    Attenuating a r latch (j + 1) (s.wrote b rest 0x38#7 0x01#8 (attenRow a r latch (j + 1)).1) where
  wf := State.wrote_wf h.wf
  step := State.wrote_step h.step (by omega) ..
  v0 := h.v0
  row := Devices.attenView_write_row (Devices.disturb_wf h.wf _) hj ((Devices.attenView_disturb hs _).trans h.row)

/-- The writes of a SET_ATTEN that succeed lead from row to row; one that fails leaves its row old or new (R77,
R203). -/
theorem Attenuating.run_fails {s : State} {j : Nat} (h : Attenuating a r latch j s) {oks : List Answer}
    {bad : Answer} {rest : List EnvTurn} (hok : ∀ b ∈ oks, b.ok = true ∧ (EnvTurn.answer b).sparesExpanders = true)
    (hbad : bad.ok = false) (spares : (EnvTurn.answer bad).sparesExpanders = true)
    (he : s.env = oks.map .answer ++ .answer bad :: rest) (level : Int) (hl : j + oks.length < 3) :
    (run (.setAtten level) s).dev.attenView = attenRow a r latch (j + oks.length) ∨
      (run (.setAtten level) s).dev.attenView = attenRow a r latch (j + oks.length + 1) := by
  induction oks generalizing s j with
  | nil =>
    have old := (Devices.attenView_disturb spares s.dev).trans h.row
    rw [run_halt ((h.writes hl level).trans (memWrite_fails he hbad ..))]
    cases htook : bad.took with
    | false => exact .inl old
    | true => exact .inr (Devices.attenView_write_row (Devices.disturb_wf h.wf _) hl old)
  | cons b oks ih =>
    rw [List.forall_mem_cons] at hok
    obtain ⟨⟨hb, sb⟩, hoks⟩ := hok
    rw [List.length_cons, Nat.add_comm oks.length, ← Nat.add_assoc] at hl ⊢
    have hj : j < 3 := by omega
    rw [run_wrote (h.writes hj level) he hb]
    exact ih (h.wrote hj sb _) hoks rfl hl

end

/-- After its read SET_ATTEN has the merged byte in `V0` and has written nothing (R196). -/
theorem attenuating_fetched {s : State} (hm : s.dev.mem.wf) {b : Answer}
    (hs : (EnvTurn.answer b).sparesExpanders = true) (rest : List EnvTurn) (level : Int) :
    Attenuating (s.dev.read Loc.out0) (rev6 (complementLevel (clampLevel level))) s.latch 0
      ((s.start (.setAtten level)).fetched b rest 0x38#7 0x01#8 .one (deliverAtten level)) where
  wf := Devices.disturb_wf hm _
  step := rfl
  v0 := congrArg (mergeAtten · _) (congrArg Prod.fst (Devices.attenView_disturb hs s.dev))
  row := Devices.attenView_disturb hs s.dev

/-- Settles O43: a read that fails leaves the first row, and a write that fails one of the two rows of
`Attenuating.run_fails`. -/
theorem failedSetAttenLeavesATabledState : Obligations.FailedSetAttenLeavesATabledState := by
  intro level s oks bad rest hm hr he hok hbad spares a r w latch
  refine ⟨_, exec_readyFor hr, ?_⟩
  match oks with
  | [] =>
    have read : commandSteps (.setAtten level) (s.start (.setAtten level)) = .halt _ :=
      memRead_fails (s := s.start (.setAtten level)) he hbad ..
    rw [run_halt read]
    exact ⟨fun _ => Prod.mk.inj (Devices.attenView_disturb spares s.dev), nofun, nofun, nofun⟩
  | b :: oks =>
    rw [List.forall_mem_cons] at hok
    obtain ⟨⟨hb, sb⟩, hoks⟩ := hok
    rw [run_fetched (s := s.start (.setAtten level)) rfl he hb]
    have underway := attenuating_fetched hm sb (oks.map .answer ++ .answer bad :: rest) level
    have fails := underway.run_fails hoks hbad spares rfl level
    match oks with
    | [] => exact ⟨nofun, fun _ => Devices.attenView_or (fails (by simp)), nofun, nofun⟩
    | [_] => exact ⟨nofun, nofun, fun _ => (fails (by simp)).imp Prod.mk.inj Prod.mk.inj, nofun⟩
    | [_, _] => exact ⟨nofun, nofun, nofun, fun _ => Devices.attenView_or (fails (by simp))⟩
    | _ :: _ :: _ :: _ => exact ⟨nofun, nofun, nofun, nofun⟩

end Sys2Proof.Machine
end

section
/-! PROOFS. READ_TEMP (R210 to R214): the decode as an integer in sixteenths, and what the command comes to when its read
succeeds and when it fails. -/

namespace Sys2Proof.Machine

/-! ### The decode -/

/-- The integer nibble stands above the fractional byte (R212, R213). -/
theorem magnitude_toNat (b0 b1 : Byte) :
    (b0.extractLsb' 0 4 ++ b1).toNat = b1.toNat + 256 * (b0.toNat % 16) := by
  rw [BitVec.toNat_append, ← Nat.shiftLeft_add_eq_or_of_lt b1.isLt, BitVec.extractLsb'_toNat, Nat.shiftLeft_eq,
    Nat.shiftRight_zero, Nat.add_comm, Nat.mul_comm]

/-- As the top bit of a signed word, bit 4 counts negatively (R111, R213). -/
theorem signBit_toInt (b0 : Byte) : (BitVec.ofBool (b0.getLsbD 4)).toInt = -((b0.toNat / 16 % 2 : Nat) : Int) := by
  have bit : (b0.getLsbD 4).toNat = b0.toNat / 16 % 2 := Nat.toNat_testBit b0.toNat 4
  rw [← bit]
  cases b0.getLsbD 4 <;> rfl

/-- Settles O46: the sign bit stands 12 places up, above the magnitude, and the extension to 32 bits keeps the integer. -/
theorem temperatureDecodeIsExact : Obligations.TemperatureDecodeIsExact := by
  intro b0 b1
  have fraction : b1.toNat < 256 := b1.isLt
  rw [decodeTemp, BitVec.toInt_signExtend_of_le (by decide), BitVec.toInt_append, signBit_toInt, magnitude_toNat,
    if_neg (by decide)]
  omega

/-! ### The command -/

section
variable {wb : Bool} {s : State} {a : Answer} {rest : List EnvTurn} (hr : s.readyFor (.readTemp wb))
  (he : s.env = .answer a :: rest)
include hr he

/-- A READ_TEMP whose read succeeds is that read and its end (R211). -/
theorem exec_readTemp_succeeds (hok : a.ok = true) :
    exec (.readTemp wb) s = .next
      ((s.start (.readTemp wb)).fetched a rest 0x18#7 0x05#8 .two (deliverTemp wb)).finish := by
  rw [exec_readyFor hr, run_fetched (s := s.start (.readTemp wb)) rfl he hok]
  exact congrArg _ (run_halt rfl)

/-- A READ_TEMP whose read fails ends where the failed read leaves it (R211, R224). -/
theorem exec_readTemp_fails (hok : a.ok = false) :
    exec (.readTemp wb) s = .next ((s.start (.readTemp wb)).failed (.read 0x18#7 0x05#8 .two) a rest) := by
  have fails : commandSteps (.readTemp wb) (s.start (.readTemp wb)) = .halt _ :=
    memRead_fails (s := s.start (.readTemp wb)) he hok ..
  rw [exec_readyFor hr, run_halt fails, State.failed, Call.effect, ite_self]
  rfl

end

/-- Settles O44: the two bytes and the notes of `exec_readTemp_succeeds`. -/
theorem readTempStoresTheDecodedValue : Obligations.ReadTempStoresTheDecodedValue := by
  intro wb s a rest hr he hok d b0 b1
  rw [exec_readTemp_succeeds hr he hok]
  cases hd : s.debug <;>
    simp [State.ended, State.finish, State.fetched, State.withBus, State.noteOk, State.advance, State.start, deliverTemp,
      Devices.receive, hr.1, hd, Message.record, readMessages, ReadLen.count, b0, b1, d]

/-- Settles O45: the failed read's state is that of `exec_readTemp_fails`. -/
theorem failedReadTempLeavesTemp : Obligations.FailedReadTempLeavesTemp := by
  intro wb s a rest hr he hok
  rw [exec_readTemp_fails hr he hok]
  cases hd : s.debug <;>
    simp [State.ended, State.failed, State.raise, State.noteFail, State.withBus, State.start, Call.messages, Call.effect,
      hr.1, hd]

end Sys2Proof.Machine
end

section
/-! PROOFS. Exceptions: every command answers a next state (R229), and the lifecycle check alone records BadState (R231). -/

namespace Sys2Proof.Machine

/-- Settles O17: a command is its steps, run to their end or to a wait. -/
theorem noCommandIsFatal : Obligations.NoCommandIsFatal :=
  fun i s => ⟨_, exec_eq i s⟩

/-! ### The lifecycle check -/

/-- A claim on the state in which a command is permitted, made of Unopened for OPEN and of Opened for every other command
(R231). -/
theorem gate_of_clauses {P : Lifecycle → Prop} {i : Instr}
    (h : (∃ revch, i = .openDev revch) ∧ P .unopened ∨ (∀ revch, i ≠ .openDev revch) ∧ P .opened) : P (gate i) := by
  rcases h with ⟨⟨revch, rfl⟩, hp⟩ | ⟨hi, hp⟩
  · exact hp
  · rwa [gate_eq_opened hi]

/-- A forbidden command on an idle machine records BadState and the sticky mark, and does nothing else
(R231, R273). -/
theorem exec_forbidden_idle {i : Instr} {s : State} (hc : s.current = none) (hl : s.lifecycle ≠ gate i) :
    exec i s = .next { s with errKind := .badState, errCode := 0#32, step := 0#3, faultSeen := true } := by
  rw [exec_forbidden hl, State.raise, State.markFault, hc]

/-! ### No step records BadState -/

/-- What every step of a command keeps, its run keeps. -/
theorem run_keeps {P : State → Prop} {i : Instr} (h : ∀ s, P s → P (commandSteps i s).state) (s : State)
    (hs : P s) : P (run i s) :=
  runSteps_rel (fun s t => P s → P t) (fun _ => id) (fun _ _ _ a b => b ∘ a) h maxSteps s hs

theorem State.engineErrors.ne_badState {s : State} (h : s.engineErrors) : s.errKind ≠ .badState := by
  rcases h with h | ⟨h, -⟩ <;> rw [h] <;> decide

theorem gpioWrite_ne_badState {s : State} (hs : s.errKind ≠ .badState) (bytes : List Byte) (line : EnLine) :
    (gpioWrite bytes line s).state.errKind ≠ .badState := by
  rcases gpioWrite_cases bytes line s with ⟨_, _, _, e⟩ | ⟨_, _, _, _, e⟩ | ⟨_, _, _, _, e⟩ <;> rw [e]
  · exact hs
  · exact hs
  · exact nofun

/-- OPEN's own errors are InvalidRevision, BusOpenFailed and GpioOpenFailed (R131, R134, R135). -/
theorem openStep_ne_badState {s : State} (hs : s.errKind ≠ .badState) (revch : Byte) :
    (openStep revch s).state.errKind ≠ .badState := by
  unfold openStep openSteps
  split
  · exact nofun
  split
  · rcases gpioBootstrap_cases s with ⟨_, _, _, e⟩ | ⟨_, _, _, e⟩ <;> rw [e] <;> exact hs
  · rcases busAcquire_cases s with ⟨_, _, _, e⟩ | ⟨_, _, _, _, e⟩ | ⟨_, _, _, _, e⟩ <;> rw [e]
    · exact hs
    · exact hs
    · exact nofun
  · rcases gpioAcquire_cases s with ⟨_, _, _, e⟩ | ⟨_, _, _, _, e⟩ | ⟨_, _, _, _, e⟩ <;> rw [e]
    · exact hs
    · exact hs
    · exact nofun
  · exact nofun

/-- No step of a handle command records BadState. -/
theorem commandSteps_ne_badState {i : Instr} (hi : isEngine i = false) {s : State} (hs : s.errKind ≠ .badState) :
    (commandSteps i s).state.errKind ≠ .badState := by
  cases i with
  | setup | select | setPulse | setVco | setAtten | readTemp => cases hi
  | openDev revch => exact openStep_ne_badState hs revch
  | close =>
    simp only [commandSteps, closeStep]
    split
    · exact hs
    · exact hs
    · exact nofun
  | enable =>
    simp only [commandSteps, enableStep]
    split
    · exact gpioWrite_ne_badState hs _ _
    · exact nofun
  | disable =>
    simp only [commandSteps, disableStep]
    split
    · exact gpioWrite_ne_badState hs _ _
    · exact nofun
  | enableDebug dbg => exact nofun

/-- A command run from its start does not come to BadState: an engine command's only error is TransportError (R224). -/
theorem run_start_ne_badState (i : Instr) (s : State) : (run i (s.start i)).errKind ≠ .badState := by
  cases hi : isEngine i with
  | true =>
    have errors : (run i (s.start i)).engineErrors := run_keeps (fun _ => commandSteps_engineErrors hi) _ (.inl rfl)
    exact errors.ne_badState
  | false => exact run_keeps (P := (·.errKind ≠ .badState)) (fun _ => commandSteps_ne_badState hi) _ nofun

/-- Settles O16: a forbidden command ends at the lifecycle check, and the steps of a permitted one record no BadState. -/
theorem forbiddenCommandRaisesBadState : Obligations.ForbiddenCommandRaisesBadState := by
  refine fun i s hc => ⟨fun h => ?forbidden, fun h => ?permitted⟩
  case forbidden => exact exec_forbidden_idle hc (gate_of_clauses (P := (s.lifecycle ≠ ·)) h)
  case permitted =>
    have hl : s.lifecycle = gate i := gate_of_clauses h
    have he : exec i s = .next (run i (s.start i)) := exec_readyFor ⟨hc, hl⟩
    obtain ⟨-, -, -, mark, -⟩ := commandsKeepTheHandle i s _ he
    exact ⟨_, he, run_start_ne_badState i s, mark hl⟩

end Sys2Proof.Machine
end

section
/-! PROOFS. Reset and hazards: an idle machine and one that is stuck, the reset event, the sticky mark, and what SELECT
keeps (R250 to R273). -/

namespace Sys2Proof.Machine

/-! ### Waiting for nobody -/

/-- With no turn of the environment left, the sequencer's turn is the fault (R262, U15). -/
theorem sequencerTurn_without_turn {s : State} (h : s.env = []) (i : Instr) : sequencerTurn i s = .fault .unanswered := by
  simp [sequencerTurn, h]

/-- Settles O8: it is the sequencer's turn, and there is no turn to take. -/
theorem unansweredCallIsStuck : Obligations.UnansweredCallIsStuck := by
  intro s i hc he hh
  rw [step_busy hc hh, sequencerTurn_without_turn he]

/-- Settles O10: with `BUSY = 0` only an action of the host could move the machine. -/
theorem idleMachineStaysIdle : Obligations.IdleMachineStaysIdle := by
  intro s hc hh
  simp [step, machineTurn, hc, hh]

/-! ### The reset event -/

/-- The reset event is taken whatever the machine is doing (R252, R253; log 16). -/
theorem step_reset {s : State} {took : Bool} {rest : List HostAction} (hh : s.host = .reset took :: rest) :
    step s = .next (resetEvent took { s with host := rest }) := by
  simp [step, machineTurn, hh]

/-- The call in flight takes effect as the reset's draw says (R253). -/
theorem cutShort_of_inFlight {s : State} {call : Call} (h : s.inFlight = some call) (took : Bool) :
    cutShort took s = if took then call.effect s.dev else s.dev := by
  simp [cutShort, h]

/-- A call that is no write changes no device (R70, R73). -/
theorem Call.effect_of_not_write {call : Call} (h : ∀ dev off val, call ≠ .write dev off val) (d : Devices) :
    call.effect d = d := by
  cases call with
  | write dev off val => exact absurd rfl (h dev off val)
  | read | gpioWrite | bootstrap | busAcquire | gpioAcquire => rfl

/-- Without a write in flight there is nothing for the reset to let through (R252). -/
theorem cutShort_of_no_write {s : State} (h : ∀ dev off val, s.inFlight ≠ some (.write dev off val)) (took : Bool) :
    cutShort took s = s.dev := by
  cases hf : s.inFlight with
  | none => simp [cutShort, hf]
  | some call =>
    have same : call.effect s.dev = s.dev :=
      Call.effect_of_not_write (fun dev off val e => h dev off val (hf.trans (congrArg some e))) _
    rw [cutShort_of_inFlight hf, same, ite_self]

/-- Settles O12: every register comes from `State.reset`, and the devices from `cutShort`. -/
theorem resetEventRestoresCalctl : Obligations.ResetEventRestoresCalctl := fun s took rest hh =>
  ⟨_, step_reset hh, rfl, rfl, rfl, rfl, rfl, rfl, rfl, rfl, rfl, rfl, rfl, rfl, rfl, rfl,
    fun h => cutShort_of_no_write (s := { s with host := rest }) h took⟩

/-- Settles O13: `cutShort` with either draw; a write's effect is to be done. -/
theorem resetMayCutAWriteShort : Obligations.ResetMayCutAWriteShort := fun s _ _ _ rest hf =>
  have cut := cutShort_of_inFlight (s := { s with host := rest }) hf
  ⟨fun hh => ⟨_, step_reset hh, cut false⟩, fun hh => ⟨_, step_reset hh, cut true⟩⟩

/-- Settles O14: each value is the one written in `State.reset`. -/
theorem resetStateHasTheTabledValues : Obligations.ResetStateHasTheTabledValues :=
  ⟨rfl, rfl, rfl, rfl, rfl, rfl, rfl, rfl, rfl, rfl⟩

/-- Settles O60: the reset machine is one that is idle after an end without an error, holding nothing. -/
theorem resetMachineIsConsistent : Obligations.ResetMachineIsConsistent := by
  have memory : State.reset.dev.mem.wf := ⟨.nil, nofun⟩
  have resources : State.reset.resourcesMatch := .inr ⟨nofun, rfl, rfl⟩
  exact State.Ended.consistent ⟨rfl, rfl, rfl⟩ memory rfl resources

/-! ### The sticky mark -/

/-- A command keeps the mark if it is permitted, and sets it, ending with BadState, if it is not (R231, R273). -/
theorem exec_faultSeen {i : Instr} {s t : State} (he : exec i s = .next t) :
    t.faultSeen = s.faultSeen ∨ t.faultSeen = true ∧ t.current = none ∧ t.errKind = .badState := by
  rcases exec_cases he with ⟨hl, -⟩ | ⟨-, rfl⟩
  · obtain ⟨-, -, -, mark, -⟩ := commandsKeepTheHandle i s t he
    exact .inl (mark hl)
  · exact .inr ⟨rfl, rfl, rfl⟩

/-- A step other than a reset keeps the mark, or sets it at the end of a word that is no command or not permitted
(R97, R231, R273). -/
theorem step_faultSeen {s t : State} (hreset : ∀ took rest, s.host ≠ .reset took :: rest) (hs : step s = .next t) :
    t.faultSeen = s.faultSeen ∨
    t.faultSeen = true ∧ t.current = none ∧ (t.errKind = .illegalCommand ∨ t.errKind = .badState) := by
  rcases step_cases hs with ⟨took, rest, hh, -⟩ | ⟨i, rest, -, he⟩ | ⟨rest, -, rfl⟩ | ⟨_, _, _, rfl⟩
  · exact absurd hh (hreset took rest)
  · exact (exec_faultSeen he).imp_right fun ⟨mark, idle, kind⟩ => ⟨mark, idle, .inr kind⟩
  · exact .inr ⟨rfl, rfl, .inl rfl⟩
  · exact .inl rfl

/-- Settles O19: both directions are read off `step_faultSeen`. -/
theorem faultMarkIsSticky : Obligations.FaultMarkIsSticky := by
  intro s t hreset hs
  rcases step_faultSeen hreset hs with same | ⟨mark, ended⟩
  · exact ⟨same.trans, fun h => .inl (same.symm.trans h)⟩
  · exact ⟨fun _ => mark, fun _ => .inr ended⟩

/-! ### What SELECT keeps -/

/-- The edit keeps the bits of one mask and sets those of another, and so leaves the bits `kept` as they are. -/
def MaskEdit (kept : Nat → Prop) (edit : Byte → Byte) : Prop :=
  ∃ keep set : Byte, (∀ b, edit b = (b &&& keep) ||| set) ∧
    ∀ k < 8, kept k → keep.getLsbD k = true ∧ set.getLsbD k = false

section
variable {kept : Nat → Prop} {edit : Byte → Byte}

/-- A kept bit reads as before; the bits outside the byte read as zero on both sides. -/
theorem MaskEdit.getLsbD_of_kept (h : MaskEdit kept edit) (b : Byte) {k : Nat} (hk : kept k) :
    (edit b).getLsbD k = b.getLsbD k := by
  obtain ⟨keep, set, he, hbits⟩ := h
  rcases Nat.lt_or_ge k 8 with inside | outside
  · obtain ⟨hkeep, hset⟩ := hbits k inside hk
    simp [he, hkeep, hset]
  · rw [BitVec.getLsbD_of_ge _ _ outside, BitVec.getLsbD_of_ge _ _ outside]

/-- Keeping and setting the same bits twice is doing it once. -/
theorem MaskEdit.idempotent (h : MaskEdit kept edit) (b : Byte) : edit (edit b) = edit b := by
  obtain ⟨keep, set, he, -⟩ := h
  have absorbs : ∀ old keep set : Bool, ((old && keep || set) && keep || set) = (old && keep || set) := by decide
  refine BitVec.eq_of_getLsbD_eq fun k _ => ?_
  simp only [he, BitVec.getLsbD_or, BitVec.getLsbD_and, absorbs]

/-- An edit that sets nothing. -/
theorem MaskEdit.of_and {keep : Byte} (h : ∀ k < 8, kept k → keep.getLsbD k = true) : MaskEdit kept (· &&& keep) :=
  ⟨keep, 0#8, fun _ => BitVec.or_zero.symm, fun k hk hkept => ⟨h k hk hkept, BitVec.getLsbD_zero⟩⟩

/-- An edit that clears nothing. -/
theorem MaskEdit.of_or {set : Byte} (h : ∀ k < 8, kept k → set.getLsbD k = false) : MaskEdit kept (· ||| set) :=
  ⟨BitVec.allOnes 8, set, fun _ => congrArg (· ||| set) BitVec.and_allOnes.symm,
    fun k hk hkept => ⟨by rw [BitVec.getLsbD_allOnes, decide_eq_true hk], h k hk hkept⟩⟩

end

/-- SELECT keeps all of `OUT0` but bit 1 (R265). -/
theorem editV0_maskEdit (rev : BoardRev) (ch : Channel) : MaskEdit (· ≠ 1) (editV0 rev ch) := by
  have clears : MaskEdit (· ≠ 1) (· &&& 0xFD#8) := .of_and (by decide)
  have sets : MaskEdit (· ≠ 1) (· ||| 0x02#8) := .of_or (by decide)
  cases rev <;> cases ch
  case d.fiber1 | e.fiber0 | e.fiber1 => exact sets
  all_goals exact clears

/-- On revision D SELECT keeps all of `OUT1` but bits 7 and 5 (R265). -/
theorem editV1_d_maskEdit (ch : Channel) : MaskEdit (fun k => k ≠ 5 ∧ k ≠ 7) (editV1 .d ch) := by
  cases ch with
  | coax => exact .of_and (keep := 0x7F#8) (by decide)
  | fiber0 => exact .of_or (set := 0x80#8) (by decide)
  | fiber1 => exact .of_or (set := 0x20#8) (by decide)
  | none => exact ⟨0x5F#8, 0#8, fun b => (clear_bits_7_5 b).trans BitVec.or_zero.symm, by decide⟩

/-- Bits that are forced high and not cleared again may as well be set at the end. -/
theorem clear_forced {keep : Byte} (h : 0x0C#8 &&& keep = 0x0C#8) (b : Byte) :
    forceE b &&& keep = (b &&& keep) ||| 0x0C#8 := by
  rw [forceE, BitVec.and_or_distrib_right, h]

/-- On revision E a fibre channel's edit of the forced byte (R183, R184). -/
theorem editV1_e_fiber {ch : Channel} (h : ch = .fiber0 ∨ ch = .fiber1) (b : Byte) :
    editV1 .e ch (forceE b) = (b &&& 0x23#8) ||| 0x08#8 := by
  rcases h with rfl | rfl <;> exact fiber_edit_of_forced b

/-- On revision E SELECT keeps bits 1 and 0 of `OUT1`, forcing included (R265). -/
theorem editV1_e_maskEdit (ch : Channel) : MaskEdit (· < 2) (fun b => editV1 .e ch (forceE b)) := by
  cases ch with
  | coax => exact ⟨0x7F#8, 0x0C#8, clear_forced rfl, by decide⟩
  | fiber0 => exact ⟨0x23#8, 0x08#8, editV1_e_fiber (.inl rfl), by decide⟩
  | fiber1 => exact ⟨0x23#8, 0x08#8, editV1_e_fiber (.inr rfl), by decide⟩
  | none => exact ⟨0x5F#8, 0x0C#8, fun b => (clear_bits_7_5 _).trans (clear_forced rfl b), by decide⟩

/-- Settles O37: every row of the edit table keeps the bits of one mask and sets those of another. -/
theorem selectKeepsTheOtherBits : Obligations.SelectKeepsTheOtherBits := by
  refine fun rev ch a b => ⟨fun _ => (editV0_maskEdit rev ch).getLsbD_of_kept a,
    fun _ h5 h7 => (editV1_d_maskEdit ch).getLsbD_of_kept b ⟨h5, h7⟩,
    fun _ => (editV1_e_maskEdit ch).getLsbD_of_kept b, fun fiber => ?modeBits, (editV0_maskEdit rev ch).idempotent a,
    (editV1_d_maskEdit ch).idempotent b, (editV1_e_maskEdit ch).idempotent b⟩
  case modeBits => simp [editV1_e_fiber fiber]

end Sys2Proof.Machine
end
